-- ==== Sys2Proof/Word.lean ====
section
/-! DEFINITION. The word types of the CRE (widths: 00_scope.md rule R7, 30_encoding.md rules R70, R73, R74). -/

namespace Sys2Proof

/-- One byte of a frame or a key. -/
abbrev Byte := BitVec 8

/-- The DATA field of a command word (R70): 64 bits, a key or a report among them. -/
abbrev Data := BitVec 64

/-- A frame, raw or deciphered (R73, R74), or a key (R22): eight bytes, byte 0 most significant (R9). -/
abbrev Frame := BitVec 64

/-- The measured value of a frame (R133). -/
abbrev Value := BitVec 16

/-- A command word W[67:0] of format CMD (R70): CMD in W[67:64], DATA in W[63:0]. -/
abbrev CmdWord := BitVec 68

/-- A command code, the CMD field (R71). -/
abbrev CmdCode := BitVec 4

/-- The class of a deciphered frame (R134). -/
inductive FrameClass where
  /-- A check fails. -/
  | invalid
  /-- A valid frame with type code 0x50. -/
  | co2
  /-- A valid frame with type code 0x42. -/
  | temp
  /-- A valid frame with any other type code. -/
  | unknown
  deriving DecidableEq, Repr

end Sys2Proof
end

