-- ==== Sys2Proof/Machine/Bytes.lean ====
section
/-! DEFINITION. The primitives of 00_scope.md rules R9 and R10 on bytes and 64-bit words. -/

namespace Sys2Proof.Machine

/-- byte_i(W) = W[63-8i : 56-8i]; byte 0 is the most significant (R9). -/
def byteAt (w : BitVec 64) (i : Fin 8) : Byte :=
  w.extractLsb' (56 - 8 * i.val) 8

/-- The big-endian join of eight bytes (R10). -/
def be64 (b : Fin 8 → Byte) : BitVec 64 :=
  b 0 ++ b 1 ++ b 2 ++ b 3 ++ b 4 ++ b 5 ++ b 6 ++ b 7

/-- Rotate right over 64 bits: ((W >> n) or (W << (64-n)))[63:0] (R10). -/
def ror64 (w : BitVec 64) (n : Nat) : BitVec 64 :=
  (w >>> n) ||| (w <<< (64 - n))

/-- Rotate left over 64 bits; only the inverse transform of rule R112 uses it. -/
def rol64 (w : BitVec 64) (n : Nat) : BitVec 64 :=
  (w <<< n) ||| (w >>> (64 - n))

/-- The nibble swap of a byte: ((b << 4) or (b >> 4))[7:0] (R10). -/
def nswap (b : Byte) : Byte :=
  (b <<< 4) ||| (b >>> 4)

end Sys2Proof.Machine
end

