-- ==== Sys2Proof/Machine/Cipher.lean ====
section
/-! DEFINITION. The cipher deobfuscator: 40_cipher.md rules R100 to R112. -/

namespace Sys2Proof.Machine

/-- The ASCII codes of the seed "Htemp99e" (R101; the codes are PRESUMED by the spec, log entry 11). -/
def seed (i : Fin 8) : Byte :=
  #v[0x48#8, 0x74#8, 0x65#8, 0x6D#8, 0x70#8, 0x39#8, 0x39#8, 0x65#8][i]

/-- SUBKEY_i = nswap(seed_i) (R101). -/
def subkey (i : Fin 8) : Byte :=
  nswap (seed i)

/-- PERM = [2,4,0,7,1,6,5,3] (R102). -/
def perm (i : Fin 8) : Fin 8 :=
  #v[2, 4, 0, 7, 1, 6, 5, 3][i]

/-- Steps 1 and 2: p_i = r_PERM[i], joined big-endian (R103, R104). -/
def permute (r : Frame) : BitVec 64 :=
  be64 fun i => byteAt r (perm i)

/-- Steps 2 to 6: the permuted word XOR the key, rotated right by 3 (R104 to R107). -/
def keystream (r k : Frame) : BitVec 64 :=
  ror64 (permute r ^^^ k) 3

/-- Steps 7 to 9: each byte less SUBKEY of the same index, modulo 256, no borrow between bytes (R108). -/
def subtractSubkey (y : BitVec 64) : Frame :=
  be64 fun i => byteAt y i - subkey i

/-- decipher(R, K, B), the whole transform (R110), with the bypass of rule R109. -/
def decipher (r k : Frame) (bypass : Bool) : Frame :=
  if bypass then r else subtractSubkey (keystream r k)

/-- The inverse of rule R112, for building reports only: it is no part of the CRE and no step uses it. -/
def encipher (d k : Frame) : Frame :=
  let y := be64 fun i => byteAt d i + subkey i
  let p := rol64 y 3 ^^^ k
  be64 fun i => byteAt p (perm i)

/-- A report that deciphers to `d` under key `k` and bypass `bypass` (R109, R112). -/
def reportFor (d k : Frame) (bypass : Bool) : Frame :=
  if bypass then d else encipher d k

end Sys2Proof.Machine
end

