-- ==== Sys2Proof/Machine/State.lean ====
section
/-! DEFINITION. The state of the CRE: the twelve registers of 10_state.md rule R20 and no other, and the host's inputs still
to come (the model's own field, log entry 1). Plain data. -/

namespace Sys2Proof.Machine

/-- The acquisition state, register STATE[1:0] (R25). -/
inductive AcqState where
  /-- No acquisition since reset. -/
  | idle
  /-- An acquisition is collecting frames. -/
  | running
  /-- The last acquisition succeeded. -/
  | done
  /-- The last acquisition failed; ERR says why. -/
  | failed
  deriving DecidableEq, Repr

/-- The failure kind of the last acquisition, register ERR[1:0] (R26). -/
inductive ErrKind where
  /-- No failure. -/
  | none
  /-- Stopped with the CO2 slot empty. -/
  | missingCo2
  /-- Stopped with the CO2 slot filled and the temperature slot empty. -/
  | missingTemp
  /-- A transport read failed. -/
  | xportRead
  deriving DecidableEq, Repr

/-- One input of the host: a command word on the command port (R70), or RESET asserted, which happens between commands
(R240, R241). -/
inductive PortInput where
  | command (w : CmdWord)
  | reset
  deriving DecidableEq, Repr

/-- The registers (R20), each under its own name, and `port`. -/
structure State where
  /-- KEY[63:0], the XOR key of the cipher (R22). -/
  key : BitVec 64
  /-- BYPASS (R23). -/
  bypass : Bool
  /-- MAXREQ[31:0], the request budget (R24). -/
  maxreq : BitVec 32
  /-- STATE[1:0] (R25). -/
  state : AcqState
  /-- ERR[1:0] (R26). -/
  err : ErrKind
  /-- ILLCMD, the sticky refusal flag (R27). -/
  illcmd : Bool
  /-- REQCNT[31:0], the frames counted (R28). -/
  reqcnt : BitVec 32
  /-- CO2V: the CO2 slot is filled (R29). -/
  co2v : Bool
  /-- CO2VAL[15:0] (R29). -/
  co2val : BitVec 16
  /-- TMPV: the temperature slot is filled (R30). -/
  tmpv : Bool
  /-- TMPRAW[15:0], in units of 1/16 kelvin (R30). -/
  tmpraw : BitVec 16
  /-- LDF[63:0], the last deciphered frame (R31). -/
  ldf : BitVec 64
  /-- THE MODEL'S OWN FIELD, no register of the CRE: the inputs the host is still to present, next first (R21, R59; log
  entry 1). -/
  port : List PortInput
  deriving DecidableEq, Repr

/-- The reasons a step can stop with a fault: there are none. "No outcome stops the CRE. It keeps accepting commands after
every one of them" (R210). -/
inductive Fault where
  deriving DecidableEq, Repr

/-- The reasons a step can be refused by the model. -/
inductive Refusal where
  /-- An arm of `exec` without a meaning; no arm raises it. Safe: the model stops. -/
  | notModelled (mnemonic : String)
  deriving DecidableEq, Repr

/-- The machine after RESET (R240, R20), with nothing presented on the command port yet (R241; log entry 3). -/
def State.reset : State where
  key := 0x844756D607939356#64
  bypass := false
  maxreq := 0x00000032#32
  state := .idle
  err := .none
  illcmd := false
  reqcnt := 0#32
  co2v := false
  co2val := 0x0000#16
  tmpv := false
  tmpraw := 0x0000#16
  ldf := 0x0000000000000000#64
  port := []

end Sys2Proof.Machine
end

