-- ==== Sys2Proof/Config.lean ====
section
/-! DEFINITION. What the spec leaves open as a value: the host's temperature conversion, the model's one parameter
(00_scope.md rule R8; 93_implementation_defined.md I1). Every other value of rule R7 is fixed. -/

namespace Sys2Proof

/-- FREE VALUE (log entry 8): the host's choice of Celsius result for a raw temperature, as the rational number its
float denotes. It has no body, so nothing can be proved of its values. `Sys2Proof.Machine.celsius` keeps it within
the bound rule R140 states. -/
opaque Config.celsiusChoice : Value → ℚ

end Sys2Proof
end

