-- ==== Sys2Proof/Machine/Operands.lean ====
section
/-! DEFINITION. Operand assembly: the fields of a command word (30_encoding.md rules R70 and R72) and of a deciphered
frame (R74, R133). -/

namespace Sys2Proof.Machine

/-- A command word from its two fields: W[67:64] = CMD, W[63:0] = DATA (R70). -/
def cmdWord (code : CmdCode) (data : Data) : CmdWord :=
  code ++ data

/-- The CMD field (R70). -/
def cmdCode (w : CmdWord) : CmdCode :=
  w.extractLsb' 64 4

/-- The DATA field (R70). -/
def cmdData (w : CmdWord) : Data :=
  w.extractLsb' 0 64

/-- SETKEY uses all of DATA (R72). -/
def keyOperand (data : Data) : Frame :=
  data

/-- SETBYP uses DATA[0] (R72). -/
def bypassOperand (data : Data) : Bool :=
  data.getLsbD 0

/-- SETMAX uses DATA[31:0], unsigned (R72). -/
def maxOperand (data : Data) : BitVec 32 :=
  data.extractLsb' 0 32

/-- FRAME uses all of DATA as the RawFrame (R72, R73). -/
def frameOperand (data : Data) : Frame :=
  data

/-- TYPE, byte d0 of a deciphered frame (R74). -/
def typeOf (d : Frame) : Byte :=
  byteAt d 0

/-- VALUE = D[55:40] (R133). -/
def valueOf (d : Frame) : Value :=
  d.extractLsb' 40 16

/-- The high byte of a value, d1 (R74). -/
def valueHigh (v : Value) : Byte :=
  v.extractLsb' 8 8

/-- The low byte of a value, d2 (R74). -/
def valueLow (v : Value) : Byte :=
  v.extractLsb' 0 8

end Sys2Proof.Machine
end

