-- ==== Sys2Proof/Machine/Flags.lean ====
section
/-! DEFINITION. The computations whose results are flags: the two frame checks (41_frame_validator.md rules R131 and
R132) and the stop test (43_acquisition.md rule R183). -/

namespace Sys2Proof.Machine

/-- d4 = 0x0D and d5 = d6 = d7 = 0x00 (R131). -/
def terminatorOk (d : Frame) : Bool :=
  byteAt d 4 == 0x0D#8 && byteAt d 5 == 0x00#8 && byteAt d 6 == 0x00#8 && byteAt d 7 == 0x00#8

/-- d0 + d1 + d2 modulo 256 equals d3 (R132). -/
def checksumOk (d : Frame) : Bool :=
  byteAt d 0 + byteAt d 1 + byteAt d 2 == byteAt d 3

/-- continue(n, m, c, t): n < m, unsigned, and not both slots filled (R183; the plain disjunction, log entry 9). -/
def continues (n m : BitVec 32) (c t : Bool) : Bool :=
  n.ult m && !(c && t)

end Sys2Proof.Machine
end

