-- ==== Sys2Proof/Machine/Validator.lean ====
section
/-! DEFINITION. The frame validator: classification (41_frame_validator.md rules R134 to R139), the word a valid frame
has (30_encoding.md rule R74), and the host's Celsius conversion (R140). -/

namespace Sys2Proof.Machine

/-- The CO2 type code (R7, R134). -/
def typeCo2 : Byte := 0x50#8

/-- The temperature type code (R7, R134). -/
def typeTemp : Byte := 0x42#8

/-- The class of a deciphered frame (R134). -/
def classify (d : Frame) : FrameClass :=
  if !terminatorOk d then .invalid
  else if !checksumOk d then .invalid
  else if typeOf d = typeCo2 then .co2
  else if typeOf d = typeTemp then .temp
  else .unknown

/-- The class encoding of LCLS: INVALID 0, CO2 1, TEMP 2, UNKNOWN 3 (R32, R134). -/
def classCode (c : FrameClass) : BitVec 2 :=
  match c with
  | .invalid => 0
  | .co2 => 1
  | .temp => 2
  | .unknown => 3

/-- The one frame that passes both checks with this type code and value: TYPE, VALUE, CSUM = d0 + d1 + d2, TERM and the
three zero bytes (R74). -/
def dfWord (ty : Byte) (v : Value) : Frame :=
  ty ++ v ++ (ty + valueHigh v + valueLow v) ++ 0x0D000000#32

/-- T(v) = v * 0.0625 - 273.15, the exact rational (R140; 90_conflicts.md C1). -/
def celsiusExact (v : Value) : ℚ :=
  (v.toNat : ℚ) / 16 - 27315 / 100

/-- The bound of the property celsius_close: 2^-12 (R140). -/
def celsiusBound : ℚ := 1 / 4096

/-- The host's conversion of a raw temperature: a free value within 2^-12 of T(v), and nothing else is known of it
(R8, R140, log entry 8). -/
def celsius (v : Value) : ℚ :=
  max (celsiusExact v - celsiusBound) (min (celsiusExact v + celsiusBound) (Config.celsiusChoice v))

/-- The source's `decode`: the CO2 value in ppm, zero-extended to 32 bits, and the temperature, each if the frame gives it
(R130, R138). -/
def decodePair (d : Frame) : Option (BitVec 32) × Option ℚ :=
  match classify d with
  | .co2 => (some ((valueOf d).setWidth 32), none)
  | .temp => (none, some (celsius (valueOf d)))
  | .unknown => (none, none)
  | .invalid => (none, none)

end Sys2Proof.Machine
end

