-- ==== Sys2Proof/Machine/Ops.lean ====
section
/-! DEFINITION. The named operations over the registers: writes, refusing a command (60_exceptions.md rule R214), and the
parts of a FRAME command (43_acquisition.md rules R181 to R186). The CRE takes no trap and returns from none (R216, R217):
raising IllegalCommand is its one exceptional operation. -/

namespace Sys2Proof.Machine

/-- The outcome of a step of the CRE. -/
abbrev Result := Host.Outcome State Fault Refusal

/-- raise IllegalCommand(c): ILLCMD <- 1, and no other register changes, `c` is recorded nowhere (R10, R214). -/
def raiseIllegalCommand (_c : CmdCode) (s : State) : State :=
  { s with illcmd := true }

/-- KEY <- k (R161). -/
def writeKey (k : BitVec 64) (s : State) : State :=
  { s with key := k }

/-- BYPASS <- b (R162). -/
def writeBypass (b : Bool) (s : State) : State :=
  { s with bypass := b }

/-- MAXREQ <- m (R163). -/
def writeMaxreq (m : BitVec 32) (s : State) : State :=
  { s with maxreq := m }

/-- What an accepted START writes (R180). -/
def beginAcquisition (s : State) : State :=
  { s with co2v := false, co2val := 0x0000#16, tmpv := false, tmpraw := 0x0000#16, reqcnt := 0#32, err := .none,
           state := .running }

/-- What an accepted XERR writes (R189). -/
def abortAcquisition (s : State) : State :=
  { s with state := .failed, err := .xportRead }

/-- LDF <- d (R182). -/
def writeLdf (d : Frame) (s : State) : State :=
  { s with ldf := d }

/-- The slot update of a frame of class `c` with value `v` (R184). -/
def fillSlot (c : FrameClass) (v : Value) (s : State) : State :=
  match c with
  | .co2 => { s with co2val := v, co2v := true }
  | .temp => { s with tmpraw := v, tmpv := true }
  | .unknown => s
  | .invalid => s

/-- REQCNT <- REQCNT + 1 modulo 2^32 (R185). -/
def countRequest (s : State) : State :=
  { s with reqcnt := s.reqcnt + 1#32 }

/-- finish() (R186): MISSING_CO2 takes precedence. -/
def finish (s : State) : State :=
  if s.co2v = false then { s with state := .failed, err := .missingCo2 }
  else if s.tmpv = false then { s with state := .failed, err := .missingTemp }
  else { s with state := .done, err := .none }

/-- The stop test after a FRAME's slot and count updates (R183). -/
def stopTest (s : State) : State :=
  if continues s.reqcnt s.maxreq s.co2v s.tmpv then s else finish s

/-- What the CRE does with a deciphered frame `d` of class `c`: LDF in every STATE (R182, R188), and while RUNNING the slot
update, the count and the stop test (R181). -/
def receive (c : FrameClass) (d : Frame) (s : State) : State :=
  if s.state = .running then stopTest (countRequest (fillSlot c (valueOf d) (writeLdf d s)))
  else writeLdf d s

/-- Perform `t` unless an acquisition is RUNNING, where the command is refused (R161 to R163, R180). -/
def unlessRunning (c : CmdCode) (s t : State) : Result :=
  if s.state = .running then .next (raiseIllegalCommand c s) else .next t

/-- Perform `t` only while an acquisition is RUNNING, otherwise the command is refused (R189). -/
def whileRunning (c : CmdCode) (s t : State) : Result :=
  if s.state = .running then .next t else .next (raiseIllegalCommand c s)

/-- The table of rule R214: whether a command of this code is refused in this STATE. -/
def refusedIn (c : CmdCode) (q : AcqState) : Bool :=
  if c = 0x0#4 || c = 0x5#4 then false
  else if c = 0x1#4 || c = 0x2#4 || c = 0x3#4 || c = 0x4#4 then q == .running
  else if c = 0x6#4 then q != .running
  else true

end Sys2Proof.Machine
end

