-- ==== Sys2Proof/Machine/Acquisition.lean ====
section
/-! DEFINITION. START, FRAME and XERR: 43_acquisition.md rules R180 to R190. -/

namespace Sys2Proof.Machine

/-- START (R180): DATA is ignored. -/
def execStart (_data : Data) (s : State) : Result :=
  unlessRunning 0x4#4 s (beginAcquisition s)

/-- FRAME (R181): decipher with KEY and BYPASS, classify, receive. -/
def execFrame (data : Data) (s : State) : Result :=
  let d := decipher (frameOperand data) s.key s.bypass
  .next (receive (classify d) d s)

/-- XERR (R189): DATA is ignored. -/
def execXerr (_data : Data) (s : State) : Result :=
  whileRunning 0x6#4 s (abortAcquisition s)

end Sys2Proof.Machine
end

