-- ==== Sys2Proof/Machine/ConfigCommands.lean ====
section
/-! DEFINITION. NOP, SETKEY, SETBYP, SETMAX and the reserved codes: 42_config_commands.md rules R160 to R164. -/

namespace Sys2Proof.Machine

/-- NOP (R160): DATA is ignored, no register changes. -/
def execNop (_data : Data) (s : State) : Result :=
  .next s

/-- SETKEY (R161). -/
def execSetkey (data : Data) (s : State) : Result :=
  unlessRunning 0x1#4 s (writeKey (keyOperand data) s)

/-- SETBYP (R162). -/
def execSetbyp (data : Data) (s : State) : Result :=
  unlessRunning 0x2#4 s (writeBypass (bypassOperand data) s)

/-- SETMAX (R163). -/
def execSetmax (data : Data) (s : State) : Result :=
  unlessRunning 0x3#4 s (writeMaxreq (maxOperand data) s)

/-- The reserved code 0x7 (R164). -/
def execReserved7 (_data : Data) (s : State) : Result :=
  .next (raiseIllegalCommand 0x7#4 s)

/-- The reserved codes 0x8 to 0xF (R164). -/
def execReserved8F (low : BitVec 3) (_data : Data) (s : State) : Result :=
  .next (raiseIllegalCommand (1#1 ++ low) s)

end Sys2Proof.Machine
end

