-- ==== Sys2Proof/Machine/FrameClasses.lean ====
section
/-! DEFINITION. The frame-class rows of the opcode table: what the CRE does, inside a FRAME command, with a deciphered frame
of each class (43_acquisition.md rules R181 and R184; 30_encoding.md rules R75 and R77; log entry 4). -/

namespace Sys2Proof.Machine

/-- FRAME.CO2: a valid CO2 frame with this value (R184). -/
def execFrameCo2 (value : Value) (s : State) : Result :=
  .next (receive .co2 (dfWord typeCo2 value) s)

/-- FRAME.TEMP: a valid temperature frame with this raw value (R184). -/
def execFrameTemp (value : Value) (s : State) : Result :=
  .next (receive .temp (dfWord typeTemp value) s)

/-- FRAME.UNKNOWN: a valid frame of another type (R77, R184). -/
def execFrameUnknown (ty : Byte) (value : Value) (s : State) : Result :=
  .next (receive .unknown (dfWord ty value) s)

/-- FRAME.INVALID: a frame that fails a check (R184, R211). -/
def execFrameInvalid (d : Frame) (s : State) : Result :=
  .next (receive .invalid d s)

end Sys2Proof.Machine
end

