-- ==== Sys2Proof/Syntax.lean ====
section
/-! DEFINITION. The instructions: one constructor per row of spec/opcode_table.json, and the two kinds of word they are
decoded from (30_encoding.md, opening; R70, R74). -/

namespace Sys2Proof

/-- What the CRE decodes. The first nine are the commands of the command port (R71); each keeps its whole DATA field, the
bits it ignores too (R72). The last four are the frame classes the validator decodes inside a FRAME command (R75, R134): a
valid frame is its type code and value, since every other byte of it is then fixed (R74). -/
inductive Instr where
  /-- CMD 0x0 (R160). -/
  | nop (data : Data)
  /-- CMD 0x1 (R161). -/
  | setkey (data : Data)
  /-- CMD 0x2 (R162). -/
  | setbyp (data : Data)
  /-- CMD 0x3 (R163). -/
  | setmax (data : Data)
  /-- CMD 0x4 (R180). -/
  | start (data : Data)
  /-- CMD 0x5 (R181). -/
  | frame (data : Data)
  /-- CMD 0x6 (R189). -/
  | xerr (data : Data)
  /-- CMD 0x7, reserved (R164). -/
  | reserved7 (data : Data)
  /-- CMD 0x8 to 0xF, reserved (R164): CMD is 8 plus `low`. -/
  | reserved8F (low : BitVec 3) (data : Data)
  /-- A valid CO2 frame (R75). -/
  | frameCo2 (value : Value)
  /-- A valid temperature frame (R75). -/
  | frameTemp (value : Value)
  /-- A valid frame of another type (R75, R77). -/
  | frameUnknown (ty : Byte) (value : Value)
  /-- A frame that fails a check (R75): all 64 bits. -/
  | frameInvalid (d : Frame)
  deriving DecidableEq, Repr

/-- A word the CRE decodes: a command word on the command port, or the deciphered frame a FRAME command produces. -/
inductive InstrWord where
  /-- Format CMD (R70). -/
  | command (w : CmdWord)
  /-- Format DF (R74). -/
  | frame (d : Frame)
  deriving DecidableEq, Repr

end Sys2Proof
end

