-- ==== Sys2Proof/Machine/Dispatch.lean ====
section
/-! DEFINITION. The dispatch: one arm per constructor of Instr, each one direct call of its meaning. -/

namespace Sys2Proof.Machine

def exec (i : Instr) (s : State) : Host.Outcome State Fault Refusal :=
  match i with
  | .nop data => Sys2Proof.Machine.execNop data s
  | .setkey data => Sys2Proof.Machine.execSetkey data s
  | .setbyp data => Sys2Proof.Machine.execSetbyp data s
  | .setmax data => Sys2Proof.Machine.execSetmax data s
  | .start data => Sys2Proof.Machine.execStart data s
  | .frame data => Sys2Proof.Machine.execFrame data s
  | .xerr data => Sys2Proof.Machine.execXerr data s
  | .reserved7 data => Sys2Proof.Machine.execReserved7 data s
  | .reserved8F low data => Sys2Proof.Machine.execReserved8F low data s
  | .frameCo2 value => Sys2Proof.Machine.execFrameCo2 value s
  | .frameTemp value => Sys2Proof.Machine.execFrameTemp value s
  | .frameUnknown ty value => Sys2Proof.Machine.execFrameUnknown ty value s
  | .frameInvalid d => Sys2Proof.Machine.execFrameInvalid d s

end Sys2Proof.Machine
end

