-- ==== Sys2Proof/WellFormed.lean ====
section
/-! DEFINITION. Which terms of Instr stand for a word: every command does (every DATA is legal, R72); an UNKNOWN frame has
neither named type code, and an INVALID frame fails a check (30_encoding.md rule R75). -/

namespace Sys2Proof

/-- The check of each constructor (R75). -/
def Instr.wellFormed (i : Instr) : Bool :=
  match i with
  | .nop _ => true
  | .setkey _ => true
  | .setbyp _ => true
  | .setmax _ => true
  | .start _ => true
  | .frame _ => true
  | .xerr _ => true
  | .reserved7 _ => true
  | .reserved8F _ _ => true
  | .frameCo2 _ => true
  | .frameTemp _ => true
  | .frameUnknown ty _ => ty != Machine.typeCo2 && ty != Machine.typeTemp
  | .frameInvalid d => !(Machine.terminatorOk d && Machine.checksumOk d)

/-- `i` stands for a word of the CRE. -/
abbrev WellFormed (i : Instr) : Prop :=
  i.wellFormed = true

end Sys2Proof
end

