-- ==== Sys2Proof/Decode.lean ====
section
/-! DEFINITION. The decoder, total on command words and on deciphered frames, the encoder, and the opcode table
(30_encoding.md rules R70 to R76; spec/opcode_table.json). -/

namespace Sys2Proof

open Sys2Proof.Machine

/-- The opcode map on a command word (R70, R71, R76): nothing but CMD tells the command, and every code has its row. -/
def decodeCommand (w : CmdWord) : Instr :=
  let data := cmdData w
  if cmdCode w = 0x0#4 then .nop data
  else if cmdCode w = 0x1#4 then .setkey data
  else if cmdCode w = 0x2#4 then .setbyp data
  else if cmdCode w = 0x3#4 then .setmax data
  else if cmdCode w = 0x4#4 then .start data
  else if cmdCode w = 0x5#4 then .frame data
  else if cmdCode w = 0x6#4 then .xerr data
  else if cmdCode w = 0x7#4 then .reserved7 data
  else .reserved8F ((cmdCode w).extractLsb' 0 3) data

/-- The frame class map on a deciphered frame (R75, R134). -/
def decodeFrame (d : Frame) : Instr :=
  match classify d with
  | .co2 => .frameCo2 (valueOf d)
  | .temp => .frameTemp (valueOf d)
  | .unknown => .frameUnknown (typeOf d) (valueOf d)
  | .invalid => .frameInvalid d

/-- The decoder: every word of either format has exactly one instruction. -/
def decode (w : InstrWord) : Instr :=
  match w with
  | .command w => decodeCommand w
  | .frame d => decodeFrame d

/-- Why bits are no word of the CRE. -/
inductive DecodeError where
  /-- No format has this many bits: the port carries 68 (R70), a frame has 64 (R56, R74). -/
  | noFormat (nbits : Nat)
  deriving DecidableEq, Repr

/-- The word that `nbits` bits holding the number `w` stand for, as spec/opcode_table.json numbers them: up to 64 bits are a
deciphered frame, up to nine bytes the 68-bit command word. Bits above a format's width do not exist and are dropped (log
entry 7). -/
def wordOfBits (nbits w : Nat) : Except DecodeError InstrWord :=
  if nbits ≤ 64 then .ok (.frame (BitVec.ofNat 64 w))
  else if nbits ≤ 72 then .ok (.command (BitVec.ofNat 68 w))
  else .error (.noFormat nbits)

/-- Decode `nbits` bits, rejecting by name. -/
def decodeBits (nbits w : Nat) : Except DecodeError Instr :=
  match wordOfBits nbits w with
  | .ok iw => .ok (decode iw)
  | .error e => .error e

/-- The instruction the decoder reads from `nbits` bits `w`, numbered as the opcode table numbers them. -/
def decodeTableWord (nbits w : Nat) : Option Instr :=
  match decodeBits nbits w with
  | .ok i => some i
  | .error _ => none

/-- The word of an instruction, written from the same tables (R70, R71, R74, R75). -/
def encode (i : Instr) : InstrWord :=
  match i with
  | .nop data => .command (cmdWord 0x0#4 data)
  | .setkey data => .command (cmdWord 0x1#4 data)
  | .setbyp data => .command (cmdWord 0x2#4 data)
  | .setmax data => .command (cmdWord 0x3#4 data)
  | .start data => .command (cmdWord 0x4#4 data)
  | .frame data => .command (cmdWord 0x5#4 data)
  | .xerr data => .command (cmdWord 0x6#4 data)
  | .reserved7 data => .command (cmdWord 0x7#4 data)
  | .reserved8F low data => .command (cmdWord (1#1 ++ low) data)
  | .frameCo2 value => .frame (dfWord typeCo2 value)
  | .frameTemp value => .frame (dfWord typeTemp value)
  | .frameUnknown ty value => .frame (dfWord ty value)
  | .frameInvalid d => .frame d

/-- The command code an instruction carries, if it is a command (R71). -/
def codeOf (i : Instr) : Option CmdCode :=
  match encode i with
  | .command w => some (cmdCode w)
  | .frame _ => none

/-- A row of spec/opcode_table.json: a word is of the row where it agrees with `pattern` on the bits of `mask`. -/
structure TableRow where
  mnemonic : String
  pattern : InstrWord
  mask : InstrWord
  deriving DecidableEq, Repr

/-- The row of each instruction, as the table gives it. -/
def tableRow (i : Instr) : TableRow :=
  match i with
  | .nop _ => ⟨"NOP", .command 0x00000000000000000#68, .command 0xF0000000000000000#68⟩
  | .setkey _ => ⟨"SETKEY", .command 0x10000000000000000#68, .command 0xF0000000000000000#68⟩
  | .setbyp _ => ⟨"SETBYP", .command 0x20000000000000000#68, .command 0xF0000000000000000#68⟩
  | .setmax _ => ⟨"SETMAX", .command 0x30000000000000000#68, .command 0xF0000000000000000#68⟩
  | .start _ => ⟨"START", .command 0x40000000000000000#68, .command 0xF0000000000000000#68⟩
  | .frame _ => ⟨"FRAME", .command 0x50000000000000000#68, .command 0xF0000000000000000#68⟩
  | .xerr _ => ⟨"XERR", .command 0x60000000000000000#68, .command 0xF0000000000000000#68⟩
  | .reserved7 _ => ⟨"RESERVED_7", .command 0x70000000000000000#68, .command 0xF0000000000000000#68⟩
  | .reserved8F _ _ => ⟨"RESERVED_8_F", .command 0x80000000000000000#68, .command 0x80000000000000000#68⟩
  | .frameCo2 _ => ⟨"FRAME.CO2", .frame 0x500000000D000000#64, .frame 0xFF000000FFFFFFFF#64⟩
  | .frameTemp _ => ⟨"FRAME.TEMP", .frame 0x420000000D000000#64, .frame 0xFF000000FFFFFFFF#64⟩
  | .frameUnknown _ _ => ⟨"FRAME.UNKNOWN", .frame 0x000000000D000000#64, .frame 0x00000000FFFFFFFF#64⟩
  | .frameInvalid _ => ⟨"FRAME.INVALID", .frame 0x0000000000000000#64, .frame 0x0000000000000000#64⟩

/-- The word agrees with the row's pattern on the row's mask. -/
def TableRow.fits (r : TableRow) (w : InstrWord) : Bool :=
  match w, r.pattern, r.mask with
  | .command w, .command p, .command m => w &&& m == p
  | .frame d, .frame p, .frame m => d &&& m == p
  | _, _, _ => false

/-- The nine command rows of the table, in its order. -/
def commandRows : List TableRow :=
  [tableRow (.nop 0), tableRow (.setkey 0), tableRow (.setbyp 0), tableRow (.setmax 0), tableRow (.start 0),
    tableRow (.frame 0), tableRow (.xerr 0), tableRow (.reserved7 0), tableRow (.reserved8F 0 0)]

end Sys2Proof
end

