-- ==== Sys2Proof/Machine/Port.lean ====
section
/-! DEFINITION. The command port and the RESET input (30_encoding.md rule R70; 70_reset_and_hazards.md rules R240 and R241),
as operations on the host's inputs that State holds (log entries 1, 2 and 3). -/

namespace Sys2Proof.Machine

/-- What the next step does, with the inputs that remain after it. -/
inductive PortEvent where
  /-- Nothing is presented. -/
  | waiting
  /-- A command word, decoded (R70). -/
  | command (i : Instr) (rest : List PortInput)
  /-- RESET (R240). -/
  | reset (rest : List PortInput)
  deriving DecidableEq, Repr

/-- Read the command port. -/
def readInput (s : State) : PortEvent :=
  match s.port with
  | [] => .waiting
  | .command w :: rest => .command (decode (.command w)) rest
  | .reset :: rest => .reset rest

/-- The host's remaining inputs after the step has taken one. -/
def withPort (rest : List PortInput) (s : State) : State :=
  { s with port := rest }

/-- RESET sets every register to its reset value (R240); the host's further inputs are outside the CRE and stay (log entry
3). -/
def applyReset (rest : List PortInput) : State :=
  withPort rest State.reset

/-- Put a command word where the next step reads it. -/
def presentCommand (w : CmdWord) (s : State) : State :=
  { s with port := .command w :: s.port }

/-- Put the word of `nbits` bits `w` where the next step reads it: a command word on the port; a deciphered frame as the
FRAME command whose report deciphers to it under the state's own KEY and BYPASS, which is how a frame reaches the validator
(R112, R181; log entry 4). Bits of no format place nothing. -/
def presentBits (nbits w : Nat) (s : State) : State :=
  match wordOfBits nbits w with
  | .ok (.command w) => presentCommand w s
  | .ok (.frame d) => presentCommand (cmdWord 0x5#4 (reportFor d s.key s.bypass)) s
  | .error _ => s

end Sys2Proof.Machine
end

