-- ==== Sys2Proof/Machine/Step.lean ====
section
/-! DEFINITION. One step: the next input of the host, carried out whole (00_scope.md rule R12; 20_memory.md rules R57, R59). -/

namespace Sys2Proof.Machine

/-- With nothing presented the CRE holds its state and waits (R225, R241; log entry 2); a command is decoded and executed
(R70); RESET resets (R240). -/
def step (s : State) : Host.Outcome State Fault Refusal :=
  match readInput s with
  | .waiting => .next s
  | .command i rest => exec i (withPort rest s)
  | .reset rest => .next (applyReset rest)

/-- `s` with the instruction of `nbits` bits `w` presented as the next command. -/
def State.withFetchWord (s : State) (nbits w : Nat) : State :=
  presentBits nbits w s

end Sys2Proof.Machine
end

