-- ==== Sys2Proof/Machine/Asm.lean ====
section
/-! DEFINITION. The textual syntax of commands (30_encoding.md rule R78) and of command words (00_scope.md rule R11). No step
uses it: it is how the spec writes command sequences down. -/

namespace Sys2Proof.Machine

/-- One line of the spec's syntax (R78). -/
inductive AsmLine where
  | nop
  | start
  | xerr
  | setkey (key : Frame)
  | setbyp (b : Bool)
  | setmax (m : BitVec 32)
  | frame (raw : Frame)
  deriving DecidableEq, Repr

/-- The command word a line assembles to; the assembler sets DATA = 0 where there is no operand (R78). -/
def assemble (l : AsmLine) : CmdWord :=
  match l with
  | .nop => cmdWord 0x0#4 0#64
  | .setkey key => cmdWord 0x1#4 key
  | .setbyp b => cmdWord 0x2#4 (if b then 1#64 else 0#64)
  | .setmax m => cmdWord 0x3#4 (m.setWidth 64)
  | .start => cmdWord 0x4#4 0#64
  | .frame raw => cmdWord 0x5#4 raw
  | .xerr => cmdWord 0x6#4 0#64

/-- A decimal digit. -/
def decDigit (c : Char) : Option Nat :=
  if '0' ≤ c ∧ c ≤ '9' then some (c.toNat - 48) else none

/-- A hexadecimal digit, in either case (log entry 10). -/
def hexDigit (c : Char) : Option Nat :=
  if '0' ≤ c ∧ c ≤ '9' then some (c.toNat - 48)
  else if 'A' ≤ c ∧ c ≤ 'F' then some (c.toNat - 55)
  else if 'a' ≤ c ∧ c ≤ 'f' then some (c.toNat - 87)
  else none

/-- The number a non-empty list of digits stands for, most significant first. -/
def parseDigits (digit : Char → Option Nat) (base acc : Nat) (cs : List Char) : Option Nat :=
  match cs with
  | [] => none
  | [c] => (digit c).map (acc * base + ·)
  | c :: c' :: rest => (digit c).bind fun n => parseDigits digit base (acc * base + n) (c' :: rest)

/-- `0x` and exactly 16 hex digits: a frame or a key, byte 0 first (R11, R78). -/
def parseFrame (cs : List Char) : Option Frame :=
  match cs with
  | '0' :: 'x' :: ds => if ds.length = 16 then (parseDigits hexDigit 16 0 ds).map (BitVec.ofNat 64) else none
  | _ => none

/-- A decimal or 0x hex number from 0 to 4294967295 (R78). -/
def parseMax (cs : List Char) : Option (BitVec 32) :=
  let n :=
    match cs with
    | '0' :: 'x' :: ds => parseDigits hexDigit 16 0 ds
    | ds => parseDigits decDigit 10 0 ds
  n.bind fun n => if n ≤ 4294967295 then some (BitVec.ofNat 32 n) else none

/-- `0` or `1` (R78). -/
def parseBit (cs : List Char) : Option Bool :=
  match cs with
  | ['0'] => some false
  | ['1'] => some true
  | _ => none

/-- One line of text: the mnemonic, then at most one operand after one space (R78; log entry 10). -/
def parseLine (cs : List Char) : Option AsmLine :=
  match cs with
  | ['N', 'O', 'P'] => some .nop
  | ['S', 'T', 'A', 'R', 'T'] => some .start
  | ['X', 'E', 'R', 'R'] => some .xerr
  | 'S' :: 'E' :: 'T' :: 'K' :: 'E' :: 'Y' :: ' ' :: op => (parseFrame op).map .setkey
  | 'S' :: 'E' :: 'T' :: 'B' :: 'Y' :: 'P' :: ' ' :: op => (parseBit op).map .setbyp
  | 'S' :: 'E' :: 'T' :: 'M' :: 'A' :: 'X' :: ' ' :: op => (parseMax op).map .setmax
  | 'F' :: 'R' :: 'A' :: 'M' :: 'E' :: ' ' :: op => (parseFrame op).map .frame
  | _ => none

/-- Text to command word (R78). -/
def assembleText (cs : List Char) : Option CmdWord :=
  (parseLine cs).map assemble

/-- A hex digit, capital (R11). -/
def hexChar (n : Nat) : Char :=
  if n < 10 then Char.ofNat (48 + n) else Char.ofNat (55 + n)

/-- The lowest `k` hex digits of a number, most significant first. -/
def hexText (k n : Nat) : List Char :=
  match k with
  | 0 => []
  | k + 1 => hexText k (n / 16) ++ [hexChar (n % 16)]

/-- The written form `c_DDDDDDDDDDDDDDDD` of a command word (R11). -/
def wordText (w : CmdWord) : List Char :=
  hexText 1 (cmdCode w).toNat ++ ['_'] ++ hexText 16 (cmdData w).toNat

end Sys2Proof.Machine
end

