-- ==== Sys2Proof/Machine/Outputs.lean ====
section
/-! DEFINITION. What the host reads, without side effects: the registers as numbers, the derived outputs (10_state.md rules
R25, R26, R32, R35) and the result of an acquisition (43_acquisition.md rule R191). -/

namespace Sys2Proof.Machine

/-- The encoding of STATE (R25). -/
def stateCode (q : AcqState) : BitVec 2 :=
  match q with
  | .idle => 0
  | .running => 1
  | .done => 2
  | .failed => 3

/-- The encoding of ERR (R26). -/
def errCode (e : ErrKind) : BitVec 2 :=
  match e with
  | .none => 0
  | .missingCo2 => 1
  | .missingTemp => 2
  | .xportRead => 3

/-- The derived outputs (R32). -/
structure Outputs where
  ltok : Bool
  lcok : Bool
  lcls : FrameClass
  lval : BitVec 16
  co2ppm : BitVec 32
  rv : Bool
  deriving DecidableEq, Repr

/-- The derived outputs as functions of the registers (R32). -/
def outputs (s : State) : Outputs where
  ltok := terminatorOk s.ldf
  lcok := checksumOk s.ldf
  lcls := classify s.ldf
  lval := valueOf s.ldf
  co2ppm := s.co2val.setWidth 32
  rv := s.state == .done

/-- Everything the host can read: the twelve registers (R20) and the six derived outputs (R32). -/
inductive PortName where
  | key
  | bypass
  | maxreq
  | state
  | err
  | illcmd
  | reqcnt
  | co2v
  | co2val
  | tmpv
  | tmpraw
  | ldf
  | ltok
  | lcok
  | lcls
  | lval
  | co2ppm
  | rv
  deriving DecidableEq, Repr

/-- The unsigned number the host reads under each name (R35, with the encodings of R25, R26 and R32). It is no step: reading
changes nothing (R58). -/
def readPort (n : PortName) (s : State) : Nat :=
  match n with
  | .key => s.key.toNat
  | .bypass => s.bypass.toNat
  | .maxreq => s.maxreq.toNat
  | .state => (stateCode s.state).toNat
  | .err => (errCode s.err).toNat
  | .illcmd => s.illcmd.toNat
  | .reqcnt => s.reqcnt.toNat
  | .co2v => s.co2v.toNat
  | .co2val => s.co2val.toNat
  | .tmpv => s.tmpv.toNat
  | .tmpraw => s.tmpraw.toNat
  | .ldf => s.ldf.toNat
  | .ltok => (outputs s).ltok.toNat
  | .lcok => (outputs s).lcok.toNat
  | .lcls => (classCode (outputs s).lcls).toNat
  | .lval => (outputs s).lval.toNat
  | .co2ppm => (outputs s).co2ppm.toNat
  | .rv => (outputs s).rv.toNat

/-- The source's Reading: CO2 in ppm and the temperature in degrees Celsius (R191). -/
structure Reading where
  co2ppm : BitVec 32
  temperature : ℚ
  deriving DecidableEq, Repr

/-- The result of an acquisition (R191): none while it runs or before the first, else the source's Ok or Err. -/
inductive AcqResult where
  | pending
  | ok (r : Reading)
  | error (k : ErrKind)
  deriving DecidableEq, Repr

/-- What the host makes of the registers (R191): the Reading when RV = 1, the error kind when STATE is FAILED. -/
def result (s : State) : AcqResult :=
  match s.state with
  | .idle => .pending
  | .running => .pending
  | .done => .ok ⟨(outputs s).co2ppm, celsius s.tmpraw⟩
  | .failed => .error s.err

end Sys2Proof.Machine
end

