-- ==== Sys2Proof/Machine/HostLoop.lean ====
section
/-! DEFINITION. The host's side of an acquisition: the driver of 43_acquisition.md rule R202 on the machine, and beside it the
source's loop `acquire` with the disjunctive exit and at least one read (R183, R187, R193; 90_conflicts.md C2, C3), for claims
that the two agree. No step uses them. -/

namespace Sys2Proof.Machine

/-- One `read_report` of the transport (R193). -/
inductive TransportRead where
  | report (raw : Frame)
  | failed
  deriving DecidableEq, Repr

/-- FRAME with the report when the read succeeds, XERR when it fails (R202). -/
def commandFor (r : TransportRead) : CmdWord :=
  match r with
  | .report raw => cmdWord 0x5#4 raw
  | .failed => cmdWord 0x6#4 0#64

/-- Present one command word and let the CRE carry it out. -/
def issue (w : CmdWord) (s : State) : Result :=
  step (presentCommand w s)

/-- While STATE = RUNNING, issue the command of one read after another; stop when STATE is not RUNNING (R202, R203) or the
transport gives no further read. -/
def drive (reads : List TransportRead) (s : State) : Result :=
  match reads with
  | [] => .next s
  | r :: rest =>
    if s.state = .running then
      match issue (commandFor r) s with
      | .next t => drive rest t
      | .fault f => .fault f
      | .refused f => .refused f
    else .next s

/-- START, then the driver (R193). -/
def runAcquisition (reads : List TransportRead) (s : State) : Result :=
  match issue (cmdWord 0x4#4 0#64) s with
  | .next t => drive reads t
  | .fault f => .fault f
  | .refused f => .refused f

/-- The source's result once its loop stops (R186). -/
def acquireResult (co2 : Option (BitVec 32)) (temp : Option ℚ) : AcqResult :=
  match co2, temp with
  | none, _ => .error .missingCo2
  | some _, none => .error .missingTemp
  | some c, some t => .ok ⟨c, t⟩

/-- The source's loop from its two slots and its request count: the result, and how many reads were made in all. The body
comes before the test (R187); a filled slot is overwritten by a newer value (R184); a failed read aborts (R190). -/
def acquireLoop (budget : BitVec 32) (key : Frame) (bypass : Bool) (reads : List TransportRead)
    (co2 : Option (BitVec 32)) (temp : Option ℚ) (requests : Nat) : AcqResult × Nat :=
  match reads with
  | [] => (.pending, requests)
  | .failed :: _ => (.error .xportRead, requests + 1)
  | .report raw :: rest =>
    let p := decodePair (decipher raw key bypass)
    let co2' := p.1.or co2
    let temp' := p.2.or temp
    if budget.toNat ≤ requests + 1 ∨ (co2'.isSome ∧ temp'.isSome) then (acquireResult co2' temp', requests + 1)
    else acquireLoop budget key bypass rest co2' temp' (requests + 1)

/-- `acquire(max_requests, source, key, bypass)`: both slots empty, no request made (R193). -/
def acquire (budget : BitVec 32) (key : Frame) (bypass : Bool) (reads : List TransportRead) : AcqResult × Nat :=
  acquireLoop budget key bypass reads none none 0

end Sys2Proof.Machine
end

