-- ==== Sys2Proof/Safety.lean ====
section
/-! DEFINITION. What claims about the CRE are stated in: a run without a refused command (60_exceptions.md rule R214), the
reachable-state invariants (10_state.md rules R26 and R34), and the table of writers (R20). -/

namespace Sys2Proof.Safety

open Sys2Proof.Machine

/-- No command has been refused since RESET: the premise R214 asks of a claim about a run. -/
def NoRefusal (s : State) : Prop :=
  s.illcmd = false

/-- The command is refused in this state, by the table of rule R214. A frame class is no command and is never refused. -/
def refused (i : Instr) (s : State) : Bool :=
  match codeOf i with
  | some c => refusedIn c s.state
  | none => false

/-- The invariants of rule R34, one field each, and that ERR is nonzero exactly when STATE = FAILED (R26). -/
structure Inv (s : State) : Prop where
  done : s.state = .done → s.co2v = true ∧ s.tmpv = true ∧ s.err = .none
  running : s.state = .running →
    s.err = .none ∧ ¬(s.co2v = true ∧ s.tmpv = true) ∧ (s.reqcnt = 0#32 ∨ s.reqcnt.toNat < s.maxreq.toNat)
  idle : s.state = .idle → s.reqcnt = 0#32 ∧ s.co2v = false ∧ s.tmpv = false ∧ s.err = .none
  co2Empty : s.co2v = false → s.co2val = 0#16
  tmpEmpty : s.tmpv = false → s.tmpraw = 0#16
  errFailed : s.err ≠ .none ↔ s.state = .failed

/-- STATE after a FRAME while RUNNING, from the new count, the budget and the new slot flags, as rules R183 and R186 give it. -/
def stateAfterFrame (n m : BitVec 32) (co2v tmpv : Bool) : AcqState :=
  if n.toNat < m.toNat ∧ ¬(co2v = true ∧ tmpv = true) then .running
  else if co2v = true ∧ tmpv = true then .done
  else .failed

/-- ERR after a FRAME while RUNNING: `old` while it continues, else the kind rule R186 gives. -/
def errAfterFrame (old : ErrKind) (n m : BitVec 32) (co2v tmpv : Bool) : ErrKind :=
  if n.toNat < m.toNat ∧ ¬(co2v = true ∧ tmpv = true) then old
  else if co2v = false then .missingCo2
  else if tmpv = false then .missingTemp
  else .none

/-- The instruction is a FRAME command, or a class of frame inside one. -/
def isFrame (i : Instr) : Bool :=
  match i with
  | .nop _ => false
  | .setkey _ => false
  | .setbyp _ => false
  | .setmax _ => false
  | .start _ => false
  | .frame _ => true
  | .xerr _ => false
  | .reserved7 _ => false
  | .reserved8F _ _ => false
  | .frameCo2 _ => true
  | .frameTemp _ => true
  | .frameUnknown _ _ => true
  | .frameInvalid _ => true

/-- The column "written by" of rule R20: may the instruction change this register in this state? The derived outputs are no
registers (R32): the answer for them is true and says nothing. -/
def mayWrite (n : PortName) (i : Instr) (s : State) : Bool :=
  match n with
  | .key => codeOf i == some 0x1#4
  | .bypass => codeOf i == some 0x2#4
  | .maxreq => codeOf i == some 0x3#4
  | .state => codeOf i == some 0x4#4 || isFrame i || codeOf i == some 0x6#4
  | .err => codeOf i == some 0x4#4 || isFrame i || codeOf i == some 0x6#4
  | .illcmd => refused i s
  | .reqcnt => codeOf i == some 0x4#4 || isFrame i
  | .co2v => codeOf i == some 0x4#4 || isFrame i
  | .co2val => codeOf i == some 0x4#4 || isFrame i
  | .tmpv => codeOf i == some 0x4#4 || isFrame i
  | .tmpraw => codeOf i == some 0x4#4 || isFrame i
  | .ldf => isFrame i
  | .ltok => true
  | .lcok => true
  | .lcls => true
  | .lval => true
  | .co2ppm => true
  | .rv => true

end Sys2Proof.Safety
end

