-- ==== Sys2Proof/Certificates/Slice0/Obligations.lean ====
section
/-! DEFINITION. What is to be proved of the model: one definition per statement, from the spec's numbered rules. `port`, the
list of the host's inputs, is the model's own field (log entry 1): no rule is cited for what a statement says of it. -/

open Sys2Proof Sys2Proof.Machine Sys2Proof.Safety

/-! ### Encoding -/

/-- Decoding an encoded well-formed instruction gives it back, every operand at every value (R70 to R75). -/
def Obligations.DecodeOfEncode : Prop :=
  ∀ i : Instr, WellFormed i → decode (encode i) = i

/-- Every word of either format is the word of the instruction it decodes to, which is well-formed: no bit is dropped (R70,
R72, R74, R75). -/
def Obligations.EncodeOfDecode : Prop :=
  ∀ w : InstrWord, WellFormed (decode w) ∧ encode (decode w) = w

/-- Words written out from the encodings of R71, R74 and R75 decode to the instructions they stand for. -/
def Obligations.WrittenWordsDecode : Prop :=
  decode (.command 0x0FFFFFFFFFFFFFFFF#68) = .nop 0xFFFFFFFFFFFFFFFF#64 ∧
  decode (.command 0x10123456789ABCDEF#68) = .setkey 0x0123456789ABCDEF#64 ∧
  decode (.command 0x20000000000000001#68) = .setbyp 1#64 ∧
  decode (.command 0x3000000000000000A#68) = .setmax 10#64 ∧
  decode (.command 0x40000000000000000#68) = .start 0#64 ∧
  decode (.command 0x582A326E07A090F86#68) = .frame 0x82A326E07A090F86#64 ∧
  decode (.command 0x60000000000000000#68) = .xerr 0#64 ∧
  decode (.command 0x70000000000000000#68) = .reserved7 0#64 ∧
  decode (.command 0xF0000000000000000#68) = .reserved8F 7#3 0#64 ∧
  decode (.frame 0x500064B40D000000#64) = .frameCo2 100#16 ∧
  decode (.frame 0x421185D80D000000#64) = .frameTemp 0x1185#16 ∧
  decode (.frame 0x411234870D000000#64) = .frameUnknown 0x41#8 0x1234#16 ∧
  decode (.frame 0x500064B40C000000#64) = .frameInvalid 0x500064B40C000000#64

/-- A command word is of exactly one command row of the opcode table, and decodes to that row's instruction (R70, R71). -/
def Obligations.CommandRowsSeparate : Prop :=
  ∀ (w : CmdWord) (r : TableRow), r ∈ commandRows →
    (r.fits (.command w) = true ↔ tableRow (decode (.command w)) = r)

/-- The frame class map as match and mask over D with the checksum condition, and the class codes (R75). -/
def Obligations.ClassMapMatchMask : Prop :=
  ∀ d : Frame,
    (classify d = .co2 ↔ d &&& 0xFF000000FFFFFFFF#64 = 0x500000000D000000#64 ∧ checksumOk d = true) ∧
    (classify d = .temp ↔ d &&& 0xFF000000FFFFFFFF#64 = 0x420000000D000000#64 ∧ checksumOk d = true) ∧
    (classify d = .unknown ↔ d &&& 0x00000000FFFFFFFF#64 = 0x000000000D000000#64 ∧ checksumOk d = true ∧
      byteAt d 0 ≠ 0x50#8 ∧ byteAt d 0 ≠ 0x42#8) ∧
    (classify d = .invalid ↔ terminatorOk d = false ∨ checksumOk d = false) ∧
    classCode .co2 = 1#2 ∧ classCode .temp = 2#2 ∧ classCode .unknown = 3#2 ∧ classCode .invalid = 0#2

/-- The bits of DATA each command uses, and that no other bit has an effect (R72). -/
def Obligations.UnusedDataIgnored : Prop :=
  (∀ (d d' : Data) (low : BitVec 3) (s : State),
    exec (.nop d) s = exec (.nop d') s ∧ exec (.start d) s = exec (.start d') s ∧ exec (.xerr d) s = exec (.xerr d') s ∧
    exec (.reserved7 d) s = exec (.reserved7 d') s ∧ exec (.reserved8F low d) s = exec (.reserved8F low d') s) ∧
  (∀ (d d' : Data) (s : State), d.getLsbD 0 = d'.getLsbD 0 → exec (.setbyp d) s = exec (.setbyp d') s) ∧
  (∀ (d d' : Data) (s : State), d.extractLsb' 0 32 = d'.extractLsb' 0 32 → exec (.setmax d) s = exec (.setmax d') s) ∧
  (∀ (d : Data) (s : State), s.state ≠ .running →
    (∃ t, exec (.setkey d) s = .next t ∧ ∀ i : Fin 8, byteAt t.key i = d.extractLsb' (56 - 8 * i.val) 8) ∧
    (∃ t, exec (.setbyp d) s = .next t ∧ t.bypass = d.getLsbD 0) ∧
    (∃ t, exec (.setmax d) s = .next t ∧ t.maxreq.toNat = d.toNat % 2 ^ 32)) ∧
  (∀ (d : Data) (s : State), ∃ t, exec (.frame d) s = .next t ∧ t.ldf = decipher d s.key s.bypass)

/-- Textual lines assemble to their words, and assembled words decode to the command named (R78). -/
def Obligations.AssembledLinesDecode : Prop :=
  decode (.command (assemble .nop)) = .nop 0#64 ∧
  decode (.command (assemble .start)) = .start 0#64 ∧
  decode (.command (assemble .xerr)) = .xerr 0#64 ∧
  (∀ k : Frame, decode (.command (assemble (.setkey k))) = .setkey k) ∧
  decode (.command (assemble (.setbyp false))) = .setbyp 0#64 ∧
  decode (.command (assemble (.setbyp true))) = .setbyp 1#64 ∧
  (∀ m : BitVec 32, decode (.command (assemble (.setmax m))) = .setmax (m.setWidth 64)) ∧
  (∀ raw : Frame, decode (.command (assemble (.frame raw))) = .frame raw) ∧
  (assembleText "FRAME 0x82A326E07A090F86".toList).map wordText = some "5_82A326E07A090F86".toList

/-! ### The step, RESET and the port -/

/-- A step with a command word presented is exec of the instruction it decodes to, on the state whose port has moved past it
(R12, R59, R70). -/
def Obligations.StepRunsCommand : Prop :=
  ∀ (w : CmdWord) (rest : List PortInput) (s : State),
    step { s with port := .command w :: rest } = exec (decode (.command w)) { s with port := rest }

/-- The model's choice (log entries 4 and 7): the bits of any table row decode, and presented by withFetchWord they run as
that instruction on the state itself, a frame class through the FRAME command that deciphers to it (R112, R181). -/
def Obligations.TableWordsRun : Prop :=
  ∀ (s : State) (nbits w : Nat),
    (nbits ≤ 72 → ∃ i, decodeTableWord nbits w = some i ∧ WellFormed i ∧ step (s.withFetchWord nbits w) = exec i s) ∧
    (72 < nbits → decodeTableWord nbits w = none)

/-- RESET sets every register and the derived outputs as R240 lists them, from any state. -/
def Obligations.ResetSetsRegisters : Prop :=
  ∀ (rest : List PortInput) (s : State), ∃ t, step { s with port := .reset :: rest } = .next t ∧
    t.key = 0x844756D607939356#64 ∧ t.bypass = false ∧ t.maxreq = 50#32 ∧ t.state = .idle ∧ t.err = .none ∧
    t.illcmd = false ∧ t.reqcnt = 0#32 ∧ t.co2v = false ∧ t.co2val = 0#16 ∧ t.tmpv = false ∧ t.tmpraw = 0#16 ∧
    t.ldf = 0#64 ∧
    (outputs t).ltok = false ∧ (outputs t).lcok = true ∧ (outputs t).lcls = .invalid ∧ (outputs t).lval = 0#16 ∧
    (outputs t).co2ppm = 0#32 ∧ (outputs t).rv = false

/-- RESET during an acquisition abandons it without a result (R241). The last clause, that a step with nothing presented then
changes nothing, is the model's reading of R241 and R225 (DEDUCED, log entry 2). -/
def Obligations.ResetAbandonsAcquisition : Prop :=
  ∀ (s : State), s.state = .running → ∃ t, step { s with port := [.reset] } = .next t ∧
    t.state = .idle ∧ t.err = .none ∧ result t = .pending ∧ step t = .next t

/-- The model's choice of how inputs arrive (log entries 1, 2 and 3): RESET gives the model's initial state and takes no further
input (R241, R242), and with nothing presented the state is held (R225). -/
def Obligations.InputsBetweenCommands : Prop :=
  (∀ (rest : List PortInput) (s : State),
    step { s with port := .reset :: rest } = .next { State.reset with port := rest }) ∧
  (∀ s : State, s.port = [] → step s = .next s)

/-- Every run goes on: no number of steps from any state ends in a fault or a refusal (R210). -/
def Obligations.NothingStopsTheMachine : Prop :=
  ∀ (k : Nat) (s : State), ∃ t : State, Host.Core.run core k s = .next t

/-! ### Configuration commands -/

/-- NOP changes nothing, in any STATE (R160). -/
def Obligations.NopChangesNothing : Prop :=
  ∀ (data : Data) (s : State), decode (.command (0x0#4 ++ data)) = .nop data ∧ exec (.nop data) s = .next s

/-- SETKEY loads KEY and nothing else, and is refused while RUNNING; with KEY = 0 the XOR step is the identity (R161, with its
example). -/
def Obligations.SetkeyLoadsKey : Prop :=
  (∀ (data : Data) (s : State), decode (.command (0x1#4 ++ data)) = .setkey data ∧
    (s.state ≠ .running → exec (.setkey data) s = .next { s with key := data }) ∧
    (s.state = .running → exec (.setkey data) s = .next { s with illcmd := true })) ∧
  (∀ r : Frame, permute r ^^^ 0#64 = permute r ∧ keystream r 0#64 = ror64 (permute r) 3) ∧
  exec (.frame 0xD4A4A2B63D9A9C50#64) { State.reset with key := 0#64 } =
    .next { State.reset with key := 0#64, ldf := 0x500064B40D000000#64 }

/-- SETBYP loads BYPASS from DATA[0] and nothing else, and is refused while RUNNING (R162, with its corner case and example). -/
def Obligations.SetbypLoadsBypass : Prop :=
  (∀ (data : Data) (s : State), decode (.command (0x2#4 ++ data)) = .setbyp data ∧
    (s.state ≠ .running → exec (.setbyp data) s = .next { s with bypass := data.getLsbD 0 }) ∧
    (s.state = .running → exec (.setbyp data) s = .next { s with illcmd := true })) ∧
  (∀ s : State, s.state ≠ .running → exec (.setbyp 2#64) s = .next { s with bypass := false }) ∧
  exec (.frame 0x500064B40D000000#64) { State.reset with bypass := true } =
    .next { State.reset with bypass := true, ldf := 0x500064B40D000000#64 } ∧
  classify 0x500064B40D000000#64 = .co2

/-- SETMAX loads MAXREQ from DATA[31:0] and nothing else, and is refused while RUNNING (R163). -/
def Obligations.SetmaxLoadsBudget : Prop :=
  ∀ (data : Data) (s : State), decode (.command (0x3#4 ++ data)) = .setmax data ∧
    (s.state ≠ .running → exec (.setmax data) s = .next { s with maxreq := BitVec.ofNat 32 (data.toNat % 2 ^ 32) }) ∧
    (s.state = .running → exec (.setmax data) s = .next { s with illcmd := true })

/-- The reserved codes 0x7 to 0xF raise IllegalCommand in every STATE and change nothing else (R164). -/
def Obligations.ReservedCodesRaise : Prop :=
  (∀ (data : Data) (s : State), decode (.command (0x7#4 ++ data)) = .reserved7 data ∧
    exec (.reserved7 data) s = .next { s with illcmd := true }) ∧
  (∀ (low : BitVec 3) (data : Data) (s : State), decode (.command ((8#4 + low.setWidth 4) ++ data)) = .reserved8F low data ∧
    exec (.reserved8F low data) s = .next { s with illcmd := true })

/-- A word whose code is 0x7 or more sets ILLCMD and changes no other register, as one step of the machine (R76). -/
def Obligations.ReservedWordsOnlySetIllcmd : Prop :=
  ∀ (w : CmdWord) (rest : List PortInput) (s : State), 7 ≤ (cmdCode w).toNat →
    step { s with port := .command w :: rest } = .next { s with illcmd := true, port := rest }

/-- While an acquisition runs no instruction changes KEY, BYPASS or MAXREQ; one that the host drives by R202 ends with the
configuration it began with and with no command refused (R165, R202, R214). -/
def Obligations.ConfigHeldForAcquisition : Prop :=
  (∀ (i : Instr) (s t : State), s.state = .running → exec i s = .next t →
    t.key = s.key ∧ t.bypass = s.bypass ∧ t.maxreq = s.maxreq) ∧
  (∀ (reads : List TransportRead) (s t : State), s.state ≠ .running → runAcquisition reads s = .next t →
    t.key = s.key ∧ t.bypass = s.bypass ∧ t.maxreq = s.maxreq ∧ (NoRefusal s → NoRefusal t))

/-! ### Acquisition commands -/

/-- START clears both slots, the count and ERR and makes STATE RUNNING, and is refused while RUNNING (R180). -/
def Obligations.StartBeginsAcquisition : Prop :=
  ∀ (data : Data) (s : State), decode (.command (0x4#4 ++ data)) = .start data ∧
    (s.state ≠ .running → exec (.start data) s = .next { s with
      co2v := false, co2val := 0#16, tmpv := false, tmpraw := 0#16, reqcnt := 0#32, err := .none, state := .running }) ∧
    (s.state = .running → exec (.start data) s = .next { s with illcmd := true })

/-- FRAME writes LDF in every STATE, and nothing else outside RUNNING (R182, R188). -/
def Obligations.FrameOutsideRunning : Prop :=
  (∀ (data : Data) (s : State), s.state ≠ .running →
    exec (.frame data) s = .next { s with ldf := decipher data s.key s.bypass }) ∧
  (∀ (data : Data) (s : State), ∃ t, exec (.frame data) s = .next t ∧ t.ldf = decipher data s.key s.bypass)

/-- FRAME: LDF alone outside RUNNING; while RUNNING also the slots, the count, and the stop test on the new values; with the
example of R181 (R181, R183, R186). -/
def Obligations.FrameWhileRunning : Prop :=
  (∀ (data : Data) (s : State), decode (.command (0x5#4 ++ data)) = .frame data ∧
    (s.state ≠ .running → exec (.frame data) s = .next { s with ldf := decipher data s.key s.bypass }) ∧
    (s.state = .running →
    let d := decipher data s.key s.bypass
    let v := d.extractLsb' 40 16
    let n := s.reqcnt + 1#32
    let c := s.co2v || decide (classify d = .co2)
    let t := s.tmpv || decide (classify d = .temp)
    exec (.frame data) s = .next { s with
      ldf := d
      co2v := c
      co2val := if classify d = .co2 then v else s.co2val
      tmpv := t
      tmpraw := if classify d = .temp then v else s.tmpraw
      reqcnt := n
      state := stateAfterFrame n s.maxreq c t
      err := errAfterFrame s.err n s.maxreq c t })) ∧
  exec (.frame 0x82A326E07A090F86#64) { State.reset with maxreq := 10#32, state := .running } =
    .next { State.reset with maxreq := 10#32, state := .running, ldf := 0x500064B40D000000#64, co2v := true,
                             co2val := 100#16, reqcnt := 1#32 }

/-- The slot update by class; at most one slot changes; a filled slot is emptied by START alone (R184). -/
def Obligations.SlotUpdateByClass : Prop :=
  (∀ (data : Data) (s : State), s.state = .running → ∃ t, exec (.frame data) s = .next t ∧
    let d := decipher data s.key s.bypass
    (classify d = .co2 → t.co2val = valueOf d ∧ t.co2v = true ∧ t.tmpraw = s.tmpraw ∧ t.tmpv = s.tmpv) ∧
    (classify d = .temp → t.tmpraw = valueOf d ∧ t.tmpv = true ∧ t.co2val = s.co2val ∧ t.co2v = s.co2v) ∧
    (classify d = .invalid ∨ classify d = .unknown →
      t.co2val = s.co2val ∧ t.co2v = s.co2v ∧ t.tmpraw = s.tmpraw ∧ t.tmpv = s.tmpv)) ∧
  (∀ (i : Instr) (s t : State), exec i s = .next t → codeOf i ≠ some 0x4#4 →
    (s.co2v = true → t.co2v = true) ∧ (s.tmpv = true → t.tmpv = true))

/-- A FRAME that changes the accumulator carried a frame that passed both checks and is CO2 or TEMP (R136). -/
def Obligations.OnlyTrustedFramesAccumulate : Prop :=
  ∀ (data : Data) (s t : State), exec (.frame data) s = .next t →
    (t.co2v ≠ s.co2v ∨ t.co2val ≠ s.co2val ∨ t.tmpv ≠ s.tmpv ∨ t.tmpraw ≠ s.tmpraw) →
    let d := decipher data s.key s.bypass
    terminatorOk d = true ∧ checksumOk d = true ∧ (classify d = .co2 ∨ classify d = .temp)

/-- FRAME is the frame-class row that its deciphered frame decodes to (R181, R75; the rows as instructions are the model's
choice, log entry 4). -/
def Obligations.FrameRunsItsClassRow : Prop :=
  ∀ (data : Data) (s : State),
    exec (.frame data) s = exec (decode (.frame (decipher data s.key s.bypass))) s

/-- FRAME.CO2 outside and while RUNNING (R181, R184; the row as an instruction is the model's choice, log entry 4). -/
def Obligations.Co2RowAccumulates : Prop :=
  ∀ (v : Value) (s : State),
    let d : Frame := 0x50#8 ++ v ++ (0x50#8 + v.extractLsb' 8 8 + v.extractLsb' 0 8) ++ 0x0D000000#32
    (s.state ≠ .running → exec (.frameCo2 v) s = .next { s with ldf := d }) ∧
    (s.state = .running → exec (.frameCo2 v) s = .next { s with
      ldf := d
      co2v := true
      co2val := v
      reqcnt := s.reqcnt + 1#32
      state := stateAfterFrame (s.reqcnt + 1#32) s.maxreq true s.tmpv
      err := errAfterFrame s.err (s.reqcnt + 1#32) s.maxreq true s.tmpv })

/-- FRAME.TEMP outside and while RUNNING (R181, R184; log entry 4). -/
def Obligations.TempRowAccumulates : Prop :=
  ∀ (v : Value) (s : State),
    let d : Frame := 0x42#8 ++ v ++ (0x42#8 + v.extractLsb' 8 8 + v.extractLsb' 0 8) ++ 0x0D000000#32
    (s.state ≠ .running → exec (.frameTemp v) s = .next { s with ldf := d }) ∧
    (s.state = .running → exec (.frameTemp v) s = .next { s with
      ldf := d
      tmpv := true
      tmpraw := v
      reqcnt := s.reqcnt + 1#32
      state := stateAfterFrame (s.reqcnt + 1#32) s.maxreq s.co2v true
      err := errAfterFrame s.err (s.reqcnt + 1#32) s.maxreq s.co2v true })

/-- FRAME.UNKNOWN and FRAME.INVALID fill no slot and are counted while RUNNING (R77, R184, R211; log entry 4). -/
def Obligations.DiscardedRowsOnlyCount : Prop :=
  (∀ (ty : Byte) (v : Value) (s : State), WellFormed (.frameUnknown ty v) →
    let d : Frame := ty ++ v ++ (ty + v.extractLsb' 8 8 + v.extractLsb' 0 8) ++ 0x0D000000#32
    (s.state ≠ .running → exec (.frameUnknown ty v) s = .next { s with ldf := d }) ∧
    (s.state = .running → exec (.frameUnknown ty v) s = .next { s with
      ldf := d
      reqcnt := s.reqcnt + 1#32
      state := stateAfterFrame (s.reqcnt + 1#32) s.maxreq s.co2v s.tmpv
      err := errAfterFrame s.err (s.reqcnt + 1#32) s.maxreq s.co2v s.tmpv })) ∧
  (∀ (d : Frame) (s : State), WellFormed (.frameInvalid d) →
    (s.state ≠ .running → exec (.frameInvalid d) s = .next { s with ldf := d }) ∧
    (s.state = .running → exec (.frameInvalid d) s = .next { s with
      ldf := d
      reqcnt := s.reqcnt + 1#32
      state := stateAfterFrame (s.reqcnt + 1#32) s.maxreq s.co2v s.tmpv
      err := errAfterFrame s.err (s.reqcnt + 1#32) s.maxreq s.co2v s.tmpv }))

/-- START does not end an acquisition; the first FRAME after it is deciphered, counted and accumulated whatever MAXREQ holds,
and with MAXREQ = 0 it ends the acquisition (R187). -/
def Obligations.FirstFrameAlwaysCounts : Prop :=
  ∀ (d0 data : Data) (s : State), s.state ≠ .running → ∃ t0 t, exec (.start d0) s = .next t0 ∧ t0.state = .running ∧
    exec (.frame data) t0 = .next t ∧
    let d := decipher data s.key s.bypass
    t.reqcnt = 1#32 ∧ t.ldf = d ∧
    (t.co2v = true ↔ classify d = .co2) ∧ (classify d = .co2 → t.co2val = valueOf d) ∧
    (t.tmpv = true ↔ classify d = .temp) ∧ (classify d = .temp → t.tmpraw = valueOf d) ∧
    (s.maxreq = 0#32 → t.state = .failed ∧ t.err = if classify d = .co2 then .missingTemp else .missingCo2)

/-- XERR fails the acquisition at once and leaves the slots and the count, so that no Reading is shown, and is refused outside
RUNNING (R189, R190). -/
def Obligations.XerrAbortsAcquisition : Prop :=
  ∀ (data : Data) (s : State), decode (.command (0x6#4 ++ data)) = .xerr data ∧
    (s.state = .running → exec (.xerr data) s = .next { s with state := .failed, err := .xportRead } ∧
      (outputs { s with state := .failed, err := .xportRead }).rv = false) ∧
    (s.state ≠ .running → exec (.xerr data) s = .next { s with illcmd := true })

/-! ### Whole-machine rules -/

/-- The table of R214: a refused command sets ILLCMD and changes nothing else; every other command leaves ILLCMD alone, so it
is sticky. -/
def Obligations.RefusalFollowsTable : Prop :=
  (∀ q : AcqState,
    refusedIn 0x0#4 q = false ∧ refusedIn 0x1#4 q = decide (q = .running) ∧ refusedIn 0x2#4 q = decide (q = .running) ∧
    refusedIn 0x3#4 q = decide (q = .running) ∧ refusedIn 0x4#4 q = decide (q = .running) ∧ refusedIn 0x5#4 q = false ∧
    refusedIn 0x6#4 q = decide (q ≠ .running) ∧ (∀ c : CmdCode, 7 ≤ c.toNat → refusedIn c q = true)) ∧
  (∀ (w : CmdWord) (s : State),
    (refusedIn (cmdCode w) s.state = true → exec (decode (.command w)) s = .next { s with illcmd := true }) ∧
    (refusedIn (cmdCode w) s.state = false → ∃ t, exec (decode (.command w)) s = .next t ∧ t.illcmd = s.illcmd))

/-- ILLCMD: every refused command sets it, no step clears it but RESET, and reset gives 0 (R27). -/
def Obligations.IllcmdClearedByResetOnly : Prop :=
  (∀ (i : Instr) (s t : State), refused i s = true → exec i s = .next t → t.illcmd = true) ∧
  (∀ s t : State, s.illcmd = true → step s = .next t → t.illcmd = true ∨ ∃ rest, s.port = .reset :: rest) ∧
  (∀ (rest : List PortInput) (s t : State), step { s with port := .reset :: rest } = .next t → t.illcmd = false)

/-- No instruction changes a register that the "written by" column of R20 does not give it; and the reset column. -/
def Obligations.WrittenByTable : Prop :=
  (∀ (n : PortName) (i : Instr) (s t : State), exec i s = .next t → readPort n t ≠ readPort n s → mayWrite n i s = true) ∧
  readPort .key State.reset = 0x844756D607939356 ∧ readPort .bypass State.reset = 0 ∧
  readPort .maxreq State.reset = 50 ∧ readPort .state State.reset = 0 ∧ readPort .err State.reset = 0 ∧
  readPort .illcmd State.reset = 0 ∧ readPort .reqcnt State.reset = 0 ∧ readPort .co2v State.reset = 0 ∧
  readPort .co2val State.reset = 0 ∧ readPort .tmpv State.reset = 0 ∧ readPort .tmpraw State.reset = 0 ∧
  readPort .ldf State.reset = 0

/-- The moves of STATE and its codes: START to RUNNING, FRAME and XERR from RUNNING to DONE or FAILED, none to IDLE (R25). -/
def Obligations.StateMoves : Prop :=
  (∀ (i : Instr) (s t : State), exec i s = .next t →
    t.state = s.state ∨
    (codeOf i = some 0x4#4 ∧ s.state ≠ .running ∧ t.state = .running) ∨
    ((isFrame i = true ∨ codeOf i = some 0x6#4) ∧ s.state = .running ∧ (t.state = .done ∨ t.state = .failed))) ∧
  (∀ (d : Data) (s t : State), s.state ≠ .running → exec (.start d) s = .next t → t.state = .running) ∧
  State.reset.state = .idle ∧
  stateCode .idle = 0#2 ∧ stateCode .running = 1#2 ∧ stateCode .done = 2#2 ∧ stateCode .failed = 3#2

/-- The codes of ERR, and the cause of each failure when an acquisition fails or ends DONE (R26, R212). -/
def Obligations.FailureCauses : Prop :=
  errCode .none = 0#2 ∧ errCode .missingCo2 = 1#2 ∧ errCode .missingTemp = 2#2 ∧ errCode .xportRead = 3#2 ∧
  (∀ (i : Instr) (s t : State), exec i s = .next t → s.state = .running →
    (t.state = .failed →
      (t.err = .missingCo2 ∧ isFrame i = true ∧ t.co2v = false) ∨
      (t.err = .missingTemp ∧ isFrame i = true ∧ t.co2v = true ∧ t.tmpv = false) ∨
      (t.err = .xportRead ∧ codeOf i = some 0x6#4 ∧ t.reqcnt = s.reqcnt ∧ t.co2v = s.co2v ∧ t.tmpv = s.tmpv)) ∧
    (t.state = .done → t.err = .none ∧ isFrame i = true ∧ t.co2v = true ∧ t.tmpv = true)) ∧
  (∀ (i : Instr) (s t : State), exec i s = .next t → s.state ≠ .running → codeOf i ≠ some 0x4#4 → t.err = s.err)

/-- The invariants of R34 and R26 hold after reset. -/
def Obligations.ResetMeetsInvariants : Prop :=
  Inv State.reset

/-- Every step keeps the invariants of R34 and R26, from every state that meets them. -/
def Obligations.StepKeepsInvariants : Prop :=
  ∀ s t : State, Inv s → step s = .next t → Inv t

/-- The invariants of R34 hold in every state any host inputs lead to from reset (R34, R26). -/
def Obligations.InvariantsOnEveryRun : Prop :=
  ∀ (inputs : List PortInput) (k : Nat) (t : State),
    Host.Core.run core k ({ State.reset with port := inputs } : State) = .next t → Inv t

/-- REQCNT: START writes 0, a FRAME while RUNNING adds 1 without wrapping and stays within max(MAXREQ, 1), nothing else
writes it (R28, with the invariant of R34). -/
def Obligations.CountNeverWraps : Prop :=
  (∀ (d : Data) (s t : State), s.state ≠ .running → exec (.start d) s = .next t → t.reqcnt = 0#32) ∧
  (∀ (i : Instr) (s t : State), Inv s → s.state = .running → isFrame i = true → exec i s = .next t →
    t.reqcnt.toNat = s.reqcnt.toNat + 1 ∧ t.reqcnt.toNat ≤ max s.maxreq.toNat 1) ∧
  (∀ (i : Instr) (s t : State), exec i s = .next t → codeOf i ≠ some 0x4#4 → (isFrame i = true → s.state ≠ .running) →
    t.reqcnt = s.reqcnt)

/-- The registers are all the state the CRE has: two states that read the same everywhere differ at most in the host's inputs
(R35; `port` is the model's field, log entry 1). -/
def Obligations.ReadingsDetermineState : Prop :=
  ∀ s t : State, (∀ n : PortName, readPort n s = readPort n t) → s = { t with port := s.port }

/-- The derived outputs (R32). -/
def Obligations.DerivedOutputs : Prop :=
  ∀ s : State,
    (outputs s).ltok = terminatorOk s.ldf ∧ (outputs s).lcok = checksumOk s.ldf ∧ (outputs s).lcls = classify s.ldf ∧
    (outputs s).lval.toNat = s.ldf.toNat / 2 ^ 40 % 2 ^ 16 ∧ (outputs s).co2ppm.toNat = s.co2val.toNat ∧
    ((outputs s).rv = true ↔ s.state = .done) ∧
    classCode .invalid = 0#2 ∧ classCode .co2 = 1#2 ∧ classCode .temp = 2#2 ∧ classCode .unknown = 3#2

/-- The result of an acquisition, and that it stays readable until START or RESET (R191). -/
def Obligations.ResultStaysReadable : Prop :=
  (∀ s : State, s.state = .done →
    result s = .ok ⟨s.co2val.setWidth 32, celsius s.tmpraw⟩ ∧ (outputs s).rv = true) ∧
  (∀ s : State, s.state = .failed → result s = .error s.err ∧ (outputs s).rv = false) ∧
  (∀ (i : Instr) (s t : State), s.state ≠ .running → codeOf i ≠ some 0x4#4 → exec i s = .next t → result t = result s)

/-! ### Acquisitions -/

/-- An acquisition the host drives by R202 stops after at most max(MAXREQ, 1) reads, never counts more frames than that, and
with invalid frames alone counts exactly that many (R192). -/
def Obligations.AcquisitionIsBounded : Prop :=
  ∀ (reads : List TransportRead) (s : State), s.state ≠ .running → ∃ t, runAcquisition reads s = .next t ∧
    t.reqcnt.toNat ≤ max s.maxreq.toNat 1 ∧
    (max s.maxreq.toNat 1 ≤ reads.length → t.state ≠ .running) ∧
    (max s.maxreq.toNat 1 ≤ reads.length →
      (∀ r ∈ reads, ∃ raw, r = .report raw ∧ classify (decipher raw s.key s.bypass) = .invalid) →
      t.reqcnt.toNat = max s.maxreq.toNat 1 ∧ t.state = .failed ∧ t.err = .missingCo2)

/-- START and then one FRAME or XERR per read, until STATE is not RUNNING, gives the result of the source's loop, and the
reads made are REQCNT, plus 1 if the end is an XERR (R193). The loop as a function of a list of reads, with the result pending
when the list ends while it still waits, is the model's choice (log entry 16), and so is the form of its temperature (log entry
8). -/
def Obligations.DriverMatchesSourceLoop : Prop :=
  ∀ (reads : List TransportRead) (s : State), s.state ≠ .running → ∃ t, runAcquisition reads s = .next t ∧
    acquire s.maxreq s.key s.bypass reads =
      (result t, t.reqcnt.toNat + if t.err = .xportRead then 1 else 0)

/-! ### Cipher -/

/-- SUBKEY is the nibble-swapped seed, and the reset KEY is the same word (R101, R22). -/
def Obligations.SubkeyFromSeed : Prop :=
  (∀ i : Fin 8, subkey i = nswap (seed i)) ∧
  List.ofFn seed = [0x48#8, 0x74#8, 0x65#8, 0x6D#8, 0x70#8, 0x39#8, 0x39#8, 0x65#8] ∧
  List.ofFn subkey = [0x84#8, 0x47#8, 0x56#8, 0xD6#8, 0x07#8, 0x93#8, 0x93#8, 0x56#8] ∧
  be64 subkey = 0x844756D607939356#64 ∧ State.reset.key = be64 subkey

/-- PERM, that it is an involution, and that gather and scatter agree (R102, R103). -/
def Obligations.PermutationIsInvolution : Prop :=
  List.ofFn perm = [2, 4, 0, 7, 1, 6, 5, 3] ∧ (∀ i : Fin 8, perm (perm i) = i) ∧
  (∀ (r : Frame) (i : Fin 8), byteAt (permute r) i = byteAt r (perm i) ∧ byteAt (permute r) (perm i) = byteAt r i)

/-- The rotation by 3, bit by bit and byte by byte (R106). -/
def Obligations.RotationByThree : Prop :=
  ∀ x : BitVec 64,
    (∀ j : Nat, j < 64 → (ror64 x 3).getLsbD j = x.getLsbD ((j + 3) % 64)) ∧
    (∀ i : Fin 8, byteAt (ror64 x 3) i = (byteAt x i >>> 3) ||| (byteAt x (i + 7) <<< 5))

/-- The whole of decipher, with its single-bit form: every bit before the subtraction is one raw bit XOR one key bit (R110,
R109). -/
def Obligations.DecipherBitWiring : Prop :=
  ∀ r k : Frame,
    decipher r k true = r ∧
    (∀ i : Fin 8, byteAt (decipher r k false) i = byteAt (ror64 (permute r ^^^ k) 3) i - subkey i) ∧
    (∀ j : Nat, j < 64 →
      (ror64 (permute r ^^^ k) 3).getLsbD j =
        (r.getLsbD (56 - 8 * (perm ⟨7 - (j + 3) % 64 / 8, by omega⟩).val + (j + 3) % 64 % 8) ^^ k.getLsbD ((j + 3) % 64)))

/-- The subtraction wraps in each byte and borrows from no other: a byte of the result depends on that byte alone (R108). -/
def Obligations.SubtractionLanesIndependent : Prop :=
  (∀ (y : BitVec 64) (i : Fin 8),
    (byteAt (subtractSubkey y) i).toNat = ((byteAt y i).toNat + 256 - (subkey i).toNat) % 256) ∧
  (∀ (y z : BitVec 64) (i : Fin 8), byteAt y i = byteAt z i → byteAt (subtractSubkey y) i = byteAt (subtractSubkey z) i)

/-- For each key, decipher without bypass is a bijection of 64-bit frames, with the inverse of R112. -/
def Obligations.DecipherIsBijective : Prop :=
  ∀ k : Frame,
    (∀ d : Frame, decipher (encipher d k) k false = d) ∧
    (∀ r : Frame, encipher (decipher r k false) k = r) ∧
    (∀ (d : Frame) (i : Fin 8),
      byteAt (encipher d k) (perm i) = byteAt (rol64 (be64 fun j => byteAt d j + subkey j) 3 ^^^ k) i)

/-! ### Frame validator -/

/-- The terminator check, by bytes and by the low word (R131). -/
def Obligations.TerminatorByWord : Prop :=
  ∀ d : Frame,
    (terminatorOk d = true ↔ byteAt d 4 = 0x0D#8 ∧ byteAt d 5 = 0#8 ∧ byteAt d 6 = 0#8 ∧ byteAt d 7 = 0#8) ∧
    (terminatorOk d = true ↔ d.extractLsb' 0 32 = 0x0D000000#32)

/-- The checksum is a sum modulo 256 of d0, d1 and d2, and no other byte is summed (R132). -/
def Obligations.ChecksumModulo256 : Prop :=
  (∀ d : Frame, checksumOk d = true ↔
    ((byteAt d 0).toNat + (byteAt d 1).toNat + (byteAt d 2).toNat) % 256 = (byteAt d 3).toNat) ∧
  (∀ d e : Frame, d.extractLsb' 32 32 = e.extractLsb' 32 32 → checksumOk d = checksumOk e)

/-- The value is D[55:40], big-endian in bytes 1 and 2, whatever the class (R133). -/
def Obligations.ValueIsBigEndian : Prop :=
  ∀ d : Frame, (valueOf d).toNat = d.toNat / 2 ^ 40 % 2 ^ 16 ∧
    (valueOf d).toNat = (byteAt d 1).toNat * 256 + (byteAt d 2).toNat

/-- The class by the two checks and the type code; either failed check alone gives INVALID (R134, R135). -/
def Obligations.ClassByChecksAndType : Prop :=
  ∀ d : Frame,
    (terminatorOk d = false → classify d = .invalid) ∧
    (checksumOk d = false → classify d = .invalid) ∧
    (terminatorOk d = true → checksumOk d = true → classify d =
      if byteAt d 0 = 0x50#8 then .co2 else if byteAt d 0 = 0x42#8 then .temp else .unknown) ∧
    (∀ s : State, s.ldf = d → (outputs s).ltok = terminatorOk d ∧ (outputs s).lcok = checksumOk d)

/-- The corner cases of classification (R137). -/
def Obligations.ClassificationCorners : Prop :=
  (∀ c : Byte, checksumOk (0x50FFFF#24 ++ c ++ 0x0D000000#32) = true ↔ c = 0x4E#8) ∧
  (∀ d : Frame, terminatorOk d = true → checksumOk d = true → byteAt d 0 = 0#8 → classify d = .unknown) ∧
  (∀ d : Frame, byteAt d 0 = 0x50#8 ∨ byteAt d 0 = 0x42#8 → byteAt d 5 ≠ 0#8 ∨ byteAt d 6 ≠ 0#8 ∨ byteAt d 7 ≠ 0#8 →
    classify d = .invalid) ∧
  classify 0#64 = .invalid ∧ terminatorOk 0#64 = false ∧ checksumOk 0#64 = true ∧
  classify 0x500000500D000000#64 = .co2 ∧ classify 0x50FFFF4E0D000000#64 = .co2 ∧
  classify 0x420000420D000000#64 = .temp ∧ classify 0x42FFFF400D000000#64 = .temp

/-- The source's decode as class and value (R130, R138). -/
def Obligations.SourceDecodePair : Prop :=
  ∀ d : Frame,
    (classify d = .co2 → ∃ c, decodePair d = (some c, none) ∧ c.toNat = (valueOf d).toNat) ∧
    (classify d = .temp → decodePair d = (none, some (celsius (valueOf d)))) ∧
    (classify d = .invalid ∨ classify d = .unknown → decodePair d = (none, none))

/-- celsius_close, for every value of the free constant (R140; the rational value and the bound built in are the model's
choice, log entry 8). -/
def Obligations.CelsiusWithinBound : Prop :=
  ∀ v : Value, |celsius v - (100 * (v.toNat : ℚ) - 437040) / 1600| ≤ 1 / 2 ^ 12

/-- T(v) in its three forms, its range and its sign (R140), and the worked value of R141 (90_conflicts.md C1). That decode of
R141's frame yields the free celsius(4485), which CelsiusWithinBound holds near T(4485), is the model's choice (log entry 8). -/
def Obligations.ExactTemperature : Prop :=
  (∀ v : Value,
    celsiusExact v = (v.toNat : ℚ) * (625 / 10000) - 27315 / 100 ∧
    celsiusExact v = (v.toNat : ℚ) / 16 - 27315 / 100 ∧
    celsiusExact v = (100 * (v.toNat : ℚ) - 437040) / 1600 ∧
    -27315 / 100 ≤ celsiusExact v ∧ celsiusExact v ≤ 38227875 / 10000 ∧
    (celsiusExact v < 0 ↔ v.toNat ≤ 4370)) ∧
  celsiusExact 4485#16 = 71625 / 10000 ∧ decodePair 0x421185D80D000000#64 = (none, some (celsius 4485#16))
end

