-- ==== Sys2Proof/Laws/Bytes.lean ====
section
/-! SUPPORT. Bytes and words: splitting and joining are inverse, the fields of a command word, and the pieces of the cipher. -/

namespace Sys2Proof.Machine

/-- Bit `j` of byte `i` is bit 56 - 8i + j of the word. -/
theorem getLsbD_byteAt (w : BitVec 64) (i : Fin 8) (j : Nat) :
    (byteAt w i).getLsbD j = (decide (j < 8) && w.getLsbD (56 - 8 * i.val + j)) := by
  simp [byteAt]

/-- Bit `j` of the join is bit `j mod 8` of byte `7 - j / 8`. -/
theorem getLsbD_be64 (b : Fin 8 → Byte) (j : Nat) (h : j < 64) :
    (be64 b).getLsbD j = (b ⟨7 - j / 8, by omega⟩).getLsbD (j % 8) := by
  simp only [be64, BitVec.getLsbD_append]
  obtain ⟨q, r, hr, rfl⟩ : ∃ q r, r < 8 ∧ j = 8 * q + r := ⟨j / 8, j % 8, by omega, by omega⟩
  have hq : q < 8 := by omega
  have h1 : (8 * q + r) / 8 = q := by omega
  have h2 : (8 * q + r) % 8 = r := by omega
  simp only [h1, h2]
  interval_cases q <;> simp <;> grind

@[simp] theorem byteAt_be64 (b : Fin 8 → Byte) (i : Fin 8) : byteAt (be64 b) i = b i := by
  apply BitVec.eq_of_getLsbD_eq
  intro j hj
  rw [getLsbD_byteAt, getLsbD_be64 _ _ (by omega)]
  have h1 : (⟨7 - (56 - 8 * i.val + j) / 8, by omega⟩ : Fin 8) = i := by ext; simp; omega
  have h2 : (56 - 8 * i.val + j) % 8 = j := by omega
  simp [h1, h2, hj]

@[simp] theorem be64_byteAt (w : BitVec 64) : be64 (byteAt w) = w := by
  apply BitVec.eq_of_getLsbD_eq
  intro j hj
  rw [getLsbD_be64 _ _ hj, getLsbD_byteAt]
  have : 56 - 8 * (7 - j / 8) + j % 8 = j := by omega
  simp [this, Nat.mod_lt]

/-- Two words with the same bytes are equal. -/
theorem eq_of_byteAt {v w : BitVec 64} (h : ∀ i, byteAt v i = byteAt w i) : v = w := by
  rw [← be64_byteAt v, ← be64_byteAt w, funext h]

@[simp] theorem perm_perm (i : Fin 8) : perm (perm i) = i := by
  revert i; decide

@[simp] theorem byteAt_permute (r : Frame) (i : Fin 8) : byteAt (permute r) i = byteAt r (perm i) := by
  simp [permute]

@[simp] theorem byteAt_subtractSubkey (y : BitVec 64) (i : Fin 8) :
    byteAt (subtractSubkey y) i = byteAt y i - subkey i := by
  simp [subtractSubkey]

/-- The rotation by 3 is the library's rotation. -/
theorem ror64_eq_rotateRight (w : BitVec 64) : ror64 w 3 = w.rotateRight 3 := by
  simp [ror64, BitVec.rotateRight, BitVec.rotateRightAux]

theorem rol64_ror64 (w : BitVec 64) : rol64 (ror64 w 3) 3 = w := by
  apply BitVec.eq_of_getLsbD_eq
  intro j hj
  have hout : w.getLsbD (3 + (61 + j)) = false := BitVec.getLsbD_of_ge w _ (by omega)
  simp only [rol64, ror64, BitVec.getLsbD_or, BitVec.getLsbD_shiftLeft, BitVec.getLsbD_ushiftRight, hj, hout]
  by_cases h : j < 3
  · simp [h, show 61 + j < 64 by omega]
  · simp [h, show ¬ 61 + j < 64 by omega, show ¬ 61 ≤ j - 3 by omega, show 3 + (j - 3) = j by omega]

theorem ror64_rol64 (w : BitVec 64) : ror64 (rol64 w 3) 3 = w := by
  apply BitVec.eq_of_getLsbD_eq
  intro j hj
  have hout : w.getLsbD (61 + (3 + j)) = false := BitVec.getLsbD_of_ge w _ (by omega)
  simp only [rol64, ror64, BitVec.getLsbD_or, BitVec.getLsbD_shiftLeft, BitVec.getLsbD_ushiftRight, hj, hout]
  by_cases h : j < 61
  · simp [h, show 3 + j < 64 by omega]
  · simp [h, show ¬ 3 + j < 64 by omega, show ¬ 3 ≤ j - 61 by omega, show 61 + (j - 61) = j by omega]

@[simp] theorem decipher_bypass (r k : Frame) : decipher r k true = r := rfl

theorem decipher_clear (r k : Frame) : decipher r k false = subtractSubkey (keystream r k) := rfl

@[simp] theorem cmdCode_cmdWord (c : CmdCode) (data : Data) : cmdCode (cmdWord c data) = c :=
  BitVec.extractLsb'_append_eq_left

@[simp] theorem cmdData_cmdWord (c : CmdCode) (data : Data) : cmdData (cmdWord c data) = data :=
  BitVec.extractLsb'_append_eq_right

@[simp] theorem cmdWord_fields (w : CmdWord) : cmdWord (cmdCode w) (cmdData w) = w := by
  apply BitVec.eq_of_getLsbD_eq
  intro j hj
  simp only [cmdWord, cmdCode, cmdData, BitVec.getLsbD_append, BitVec.getLsbD_extractLsb']
  by_cases h : j < 64
  · simp [h]
  · simp [h, show j - 64 < 4 by omega, show 64 + (j - 64) = j by omega]

end Sys2Proof.Machine
end

