-- ==== Sys2Proof/Laws/Validator.lean ====
section
/-! SUPPORT. The frame fields, the checks and the classes: what each function of the validator answers, and the fields of the
word of a valid frame. -/

namespace Sys2Proof.Machine

/-- The bytes of a valid frame's word. -/
def dfBytes (ty : Byte) (v : Value) (i : Fin 8) : Byte :=
  #v[ty, valueHigh v, valueLow v, ty + valueHigh v + valueLow v, 0x0D#8, 0x00#8, 0x00#8, 0x00#8][i]

theorem byteAt_dfWord (ty : Byte) (v : Value) (i : Fin 8) : byteAt (dfWord ty v) i = dfBytes ty v i := by
  apply BitVec.eq_of_getLsbD_eq
  intro j hj
  simp only [getLsbD_byteAt, dfWord, BitVec.getLsbD_append]
  fin_cases i <;> interval_cases j <;> simp [dfBytes, valueHigh, valueLow]

@[simp] theorem typeOf_dfWord (ty : Byte) (v : Value) : typeOf (dfWord ty v) = ty :=
  byteAt_dfWord ty v 0

@[simp] theorem valueOf_dfWord (ty : Byte) (v : Value) : valueOf (dfWord ty v) = v := by
  apply BitVec.eq_of_getLsbD_eq
  intro j hj
  simp only [valueOf, dfWord, BitVec.getLsbD_append, BitVec.getLsbD_extractLsb']
  interval_cases j <;> simp

@[simp] theorem terminatorOk_dfWord (ty : Byte) (v : Value) : terminatorOk (dfWord ty v) = true := by
  simp [terminatorOk, byteAt_dfWord, dfBytes]

@[simp] theorem checksumOk_dfWord (ty : Byte) (v : Value) : checksumOk (dfWord ty v) = true := by
  simp [checksumOk, byteAt_dfWord, dfBytes]

theorem terminatorOk_iff (d : Frame) :
    terminatorOk d = true ↔ byteAt d 4 = 0x0D#8 ∧ byteAt d 5 = 0#8 ∧ byteAt d 6 = 0#8 ∧ byteAt d 7 = 0#8 := by
  simp [terminatorOk, and_assoc]

theorem checksumOk_iff (d : Frame) : checksumOk d = true ↔ byteAt d 0 + byteAt d 1 + byteAt d 2 = byteAt d 3 := by
  simp [checksumOk]

@[simp] theorem valueHigh_valueOf (d : Frame) : valueHigh (valueOf d) = byteAt d 1 := by
  apply BitVec.eq_of_getLsbD_eq
  intro j hj
  simp [valueHigh, valueOf, byteAt, hj, show 8 + j < 16 by omega, ← Nat.add_assoc]

@[simp] theorem valueLow_valueOf (d : Frame) : valueLow (valueOf d) = byteAt d 2 := by
  apply BitVec.eq_of_getLsbD_eq
  intro j hj
  simp [valueLow, valueOf, byteAt, hj, show j < 16 by omega]

/-- A frame that passes both checks is the word of its type code and value. -/
theorem dfWord_of_valid (d : Frame) (ht : terminatorOk d = true) (hc : checksumOk d = true) :
    dfWord (typeOf d) (valueOf d) = d := by
  rw [terminatorOk_iff] at ht
  rw [checksumOk_iff] at hc
  apply eq_of_byteAt
  intro i
  rw [byteAt_dfWord]
  fin_cases i <;> simp [dfBytes, typeOf, ht, hc]

theorem classify_invalid_iff (d : Frame) : classify d = .invalid ↔ ¬(terminatorOk d = true ∧ checksumOk d = true) := by
  unfold classify
  cases terminatorOk d <;> cases checksumOk d <;> simp
  split
  · simp
  · split <;> simp

theorem classify_of_valid (d : Frame) (ht : terminatorOk d = true) (hc : checksumOk d = true) :
    classify d = if typeOf d = typeCo2 then .co2 else if typeOf d = typeTemp then .temp else .unknown := by
  simp [classify, ht, hc]

/-- What each class but INVALID says of the frame. -/
theorem classify_cases (d : Frame) :
    (classify d = .invalid ∧ ¬(terminatorOk d = true ∧ checksumOk d = true)) ∨
    (terminatorOk d = true ∧ checksumOk d = true ∧
      ((classify d = .co2 ∧ typeOf d = typeCo2) ∨ (classify d = .temp ∧ typeOf d = typeTemp) ∨
        (classify d = .unknown ∧ typeOf d ≠ typeCo2 ∧ typeOf d ≠ typeTemp))) := by
  by_cases h : terminatorOk d = true ∧ checksumOk d = true
  · refine .inr ⟨h.1, h.2, ?_⟩
    rw [classify_of_valid d h.1 h.2]
    by_cases h0 : typeOf d = typeCo2
    · exact .inl ⟨by simp [h0], h0⟩
    · by_cases h1 : typeOf d = typeTemp
      · exact .inr (.inl ⟨by simp [h1, typeCo2, typeTemp], h1⟩)
      · exact .inr (.inr ⟨by simp [h0, h1], h0, h1⟩)
  · exact .inl ⟨(classify_invalid_iff d).2 h, h⟩

end Sys2Proof.Machine
end

