-- ==== Sys2Proof/Laws/Decode.lean ====
section
/-! SUPPORT. What the decoder answers on a command word written by its fields, code by code, and which terms are well-formed. -/

namespace Sys2Proof

open Sys2Proof.Machine

/-- Every code is one of the seven commands, 0x7, or 8 plus three low bits (R71). -/
theorem cmdCode_cases (c : CmdCode) :
    c = 0x0#4 ∨ c = 0x1#4 ∨ c = 0x2#4 ∨ c = 0x3#4 ∨ c = 0x4#4 ∨ c = 0x5#4 ∨ c = 0x6#4 ∨ c = 0x7#4 ∨
      c = 1#1 ++ c.extractLsb' 0 3 := by
  revert c; decide

@[simp] theorem decodeCommand_nop (d : Data) : decodeCommand (cmdWord 0x0#4 d) = .nop d := by
  simp [decodeCommand]

@[simp] theorem decodeCommand_setkey (d : Data) : decodeCommand (cmdWord 0x1#4 d) = .setkey d := by
  simp [decodeCommand]

@[simp] theorem decodeCommand_setbyp (d : Data) : decodeCommand (cmdWord 0x2#4 d) = .setbyp d := by
  simp [decodeCommand]

@[simp] theorem decodeCommand_setmax (d : Data) : decodeCommand (cmdWord 0x3#4 d) = .setmax d := by
  simp [decodeCommand]

@[simp] theorem decodeCommand_start (d : Data) : decodeCommand (cmdWord 0x4#4 d) = .start d := by
  simp [decodeCommand]

@[simp] theorem decodeCommand_frame (d : Data) : decodeCommand (cmdWord 0x5#4 d) = .frame d := by
  simp [decodeCommand]

@[simp] theorem decodeCommand_xerr (d : Data) : decodeCommand (cmdWord 0x6#4 d) = .xerr d := by
  simp [decodeCommand]

@[simp] theorem decodeCommand_reserved7 (d : Data) : decodeCommand (cmdWord 0x7#4 d) = .reserved7 d := by
  simp [decodeCommand]

/-- None of the codes 8 to 15 is one of the first eight. -/
theorem highCode_ne (low : BitVec 3) :
    (1#1 ++ low : CmdCode) ≠ 0x0#4 ∧ (1#1 ++ low : CmdCode) ≠ 0x1#4 ∧ (1#1 ++ low : CmdCode) ≠ 0x2#4 ∧
      (1#1 ++ low : CmdCode) ≠ 0x3#4 ∧ (1#1 ++ low : CmdCode) ≠ 0x4#4 ∧ (1#1 ++ low : CmdCode) ≠ 0x5#4 ∧
      (1#1 ++ low : CmdCode) ≠ 0x6#4 ∧ (1#1 ++ low : CmdCode) ≠ 0x7#4 := by
  revert low; decide

@[simp] theorem decodeCommand_reserved8F (low : BitVec 3) (d : Data) :
    decodeCommand (cmdWord (1#1 ++ low) d) = .reserved8F low d := by
  have hlow : (1#1 ++ low : CmdCode).extractLsb' 0 3 = low := BitVec.extractLsb'_append_eq_right
  obtain ⟨h0, h1, h2, h3, h4, h5, h6, h7⟩ := highCode_ne low
  simp only [decodeCommand, cmdCode_cmdWord, cmdData_cmdWord, if_neg h0, if_neg h1, if_neg h2, if_neg h3, if_neg h4,
    if_neg h5, if_neg h6, if_neg h7, hlow]

/-! The code each command carries; a frame class carries none. -/

@[simp] theorem codeOf_nop (d : Data) : codeOf (.nop d) = some 0x0#4 := by
  simp [codeOf, encode]

@[simp] theorem codeOf_setkey (d : Data) : codeOf (.setkey d) = some 0x1#4 := by
  simp [codeOf, encode]

@[simp] theorem codeOf_setbyp (d : Data) : codeOf (.setbyp d) = some 0x2#4 := by
  simp [codeOf, encode]

@[simp] theorem codeOf_setmax (d : Data) : codeOf (.setmax d) = some 0x3#4 := by
  simp [codeOf, encode]

@[simp] theorem codeOf_start (d : Data) : codeOf (.start d) = some 0x4#4 := by
  simp [codeOf, encode]

@[simp] theorem codeOf_frame (d : Data) : codeOf (.frame d) = some 0x5#4 := by
  simp [codeOf, encode]

@[simp] theorem codeOf_xerr (d : Data) : codeOf (.xerr d) = some 0x6#4 := by
  simp [codeOf, encode]

@[simp] theorem codeOf_reserved7 (d : Data) : codeOf (.reserved7 d) = some 0x7#4 := by
  simp [codeOf, encode]

@[simp] theorem codeOf_reserved8F (low : BitVec 3) (d : Data) : codeOf (.reserved8F low d) = some (1#1 ++ low) := by
  simp [codeOf, encode]

@[simp] theorem codeOf_frameCo2 (v : Value) : codeOf (.frameCo2 v) = none := rfl

@[simp] theorem codeOf_frameTemp (v : Value) : codeOf (.frameTemp v) = none := rfl

@[simp] theorem codeOf_frameUnknown (ty : Byte) (v : Value) : codeOf (.frameUnknown ty v) = none := rfl

@[simp] theorem codeOf_frameInvalid (d : Frame) : codeOf (.frameInvalid d) = none := rfl

@[simp] theorem wellFormed_frameUnknown (ty : Byte) (v : Value) :
    (Instr.frameUnknown ty v).wellFormed = true ↔ ty ≠ typeCo2 ∧ ty ≠ typeTemp := by
  simp [Instr.wellFormed]

@[simp] theorem wellFormed_frameInvalid (d : Frame) :
    (Instr.frameInvalid d).wellFormed = true ↔ classify d = .invalid := by
  cases h : terminatorOk d <;> simp [Instr.wellFormed, classify_invalid_iff, h]

end Sys2Proof
end

