-- ==== Sys2Proof/Laws/State.lean ====
section
/-! SUPPORT. One lemma per field per register update: what each named operation leaves in each field of State. -/

namespace Sys2Proof.Machine

/-! `raiseIllegalCommand` -/

@[simp] theorem raiseIllegalCommand_key (c : CmdCode) (s : State) : (raiseIllegalCommand c s).key = s.key := rfl
@[simp] theorem raiseIllegalCommand_bypass (c : CmdCode) (s : State) : (raiseIllegalCommand c s).bypass = s.bypass := rfl
@[simp] theorem raiseIllegalCommand_maxreq (c : CmdCode) (s : State) : (raiseIllegalCommand c s).maxreq = s.maxreq := rfl
@[simp] theorem raiseIllegalCommand_state (c : CmdCode) (s : State) : (raiseIllegalCommand c s).state = s.state := rfl
@[simp] theorem raiseIllegalCommand_err (c : CmdCode) (s : State) : (raiseIllegalCommand c s).err = s.err := rfl
@[simp] theorem raiseIllegalCommand_illcmd (c : CmdCode) (s : State) : (raiseIllegalCommand c s).illcmd = true := rfl
@[simp] theorem raiseIllegalCommand_reqcnt (c : CmdCode) (s : State) : (raiseIllegalCommand c s).reqcnt = s.reqcnt := rfl
@[simp] theorem raiseIllegalCommand_co2v (c : CmdCode) (s : State) : (raiseIllegalCommand c s).co2v = s.co2v := rfl
@[simp] theorem raiseIllegalCommand_co2val (c : CmdCode) (s : State) : (raiseIllegalCommand c s).co2val = s.co2val := rfl
@[simp] theorem raiseIllegalCommand_tmpv (c : CmdCode) (s : State) : (raiseIllegalCommand c s).tmpv = s.tmpv := rfl
@[simp] theorem raiseIllegalCommand_tmpraw (c : CmdCode) (s : State) : (raiseIllegalCommand c s).tmpraw = s.tmpraw := rfl
@[simp] theorem raiseIllegalCommand_ldf (c : CmdCode) (s : State) : (raiseIllegalCommand c s).ldf = s.ldf := rfl
@[simp] theorem raiseIllegalCommand_port (c : CmdCode) (s : State) : (raiseIllegalCommand c s).port = s.port := rfl

/-! `writeKey` -/

@[simp] theorem writeKey_key (k : BitVec 64) (s : State) : (writeKey k s).key = k := rfl
@[simp] theorem writeKey_bypass (k : BitVec 64) (s : State) : (writeKey k s).bypass = s.bypass := rfl
@[simp] theorem writeKey_maxreq (k : BitVec 64) (s : State) : (writeKey k s).maxreq = s.maxreq := rfl
@[simp] theorem writeKey_state (k : BitVec 64) (s : State) : (writeKey k s).state = s.state := rfl
@[simp] theorem writeKey_err (k : BitVec 64) (s : State) : (writeKey k s).err = s.err := rfl
@[simp] theorem writeKey_illcmd (k : BitVec 64) (s : State) : (writeKey k s).illcmd = s.illcmd := rfl
@[simp] theorem writeKey_reqcnt (k : BitVec 64) (s : State) : (writeKey k s).reqcnt = s.reqcnt := rfl
@[simp] theorem writeKey_co2v (k : BitVec 64) (s : State) : (writeKey k s).co2v = s.co2v := rfl
@[simp] theorem writeKey_co2val (k : BitVec 64) (s : State) : (writeKey k s).co2val = s.co2val := rfl
@[simp] theorem writeKey_tmpv (k : BitVec 64) (s : State) : (writeKey k s).tmpv = s.tmpv := rfl
@[simp] theorem writeKey_tmpraw (k : BitVec 64) (s : State) : (writeKey k s).tmpraw = s.tmpraw := rfl
@[simp] theorem writeKey_ldf (k : BitVec 64) (s : State) : (writeKey k s).ldf = s.ldf := rfl
@[simp] theorem writeKey_port (k : BitVec 64) (s : State) : (writeKey k s).port = s.port := rfl

/-! `writeBypass` -/

@[simp] theorem writeBypass_key (b : Bool) (s : State) : (writeBypass b s).key = s.key := rfl
@[simp] theorem writeBypass_bypass (b : Bool) (s : State) : (writeBypass b s).bypass = b := rfl
@[simp] theorem writeBypass_maxreq (b : Bool) (s : State) : (writeBypass b s).maxreq = s.maxreq := rfl
@[simp] theorem writeBypass_state (b : Bool) (s : State) : (writeBypass b s).state = s.state := rfl
@[simp] theorem writeBypass_err (b : Bool) (s : State) : (writeBypass b s).err = s.err := rfl
@[simp] theorem writeBypass_illcmd (b : Bool) (s : State) : (writeBypass b s).illcmd = s.illcmd := rfl
@[simp] theorem writeBypass_reqcnt (b : Bool) (s : State) : (writeBypass b s).reqcnt = s.reqcnt := rfl
@[simp] theorem writeBypass_co2v (b : Bool) (s : State) : (writeBypass b s).co2v = s.co2v := rfl
@[simp] theorem writeBypass_co2val (b : Bool) (s : State) : (writeBypass b s).co2val = s.co2val := rfl
@[simp] theorem writeBypass_tmpv (b : Bool) (s : State) : (writeBypass b s).tmpv = s.tmpv := rfl
@[simp] theorem writeBypass_tmpraw (b : Bool) (s : State) : (writeBypass b s).tmpraw = s.tmpraw := rfl
@[simp] theorem writeBypass_ldf (b : Bool) (s : State) : (writeBypass b s).ldf = s.ldf := rfl
@[simp] theorem writeBypass_port (b : Bool) (s : State) : (writeBypass b s).port = s.port := rfl

/-! `writeMaxreq` -/

@[simp] theorem writeMaxreq_key (m : BitVec 32) (s : State) : (writeMaxreq m s).key = s.key := rfl
@[simp] theorem writeMaxreq_bypass (m : BitVec 32) (s : State) : (writeMaxreq m s).bypass = s.bypass := rfl
@[simp] theorem writeMaxreq_maxreq (m : BitVec 32) (s : State) : (writeMaxreq m s).maxreq = m := rfl
@[simp] theorem writeMaxreq_state (m : BitVec 32) (s : State) : (writeMaxreq m s).state = s.state := rfl
@[simp] theorem writeMaxreq_err (m : BitVec 32) (s : State) : (writeMaxreq m s).err = s.err := rfl
@[simp] theorem writeMaxreq_illcmd (m : BitVec 32) (s : State) : (writeMaxreq m s).illcmd = s.illcmd := rfl
@[simp] theorem writeMaxreq_reqcnt (m : BitVec 32) (s : State) : (writeMaxreq m s).reqcnt = s.reqcnt := rfl
@[simp] theorem writeMaxreq_co2v (m : BitVec 32) (s : State) : (writeMaxreq m s).co2v = s.co2v := rfl
@[simp] theorem writeMaxreq_co2val (m : BitVec 32) (s : State) : (writeMaxreq m s).co2val = s.co2val := rfl
@[simp] theorem writeMaxreq_tmpv (m : BitVec 32) (s : State) : (writeMaxreq m s).tmpv = s.tmpv := rfl
@[simp] theorem writeMaxreq_tmpraw (m : BitVec 32) (s : State) : (writeMaxreq m s).tmpraw = s.tmpraw := rfl
@[simp] theorem writeMaxreq_ldf (m : BitVec 32) (s : State) : (writeMaxreq m s).ldf = s.ldf := rfl
@[simp] theorem writeMaxreq_port (m : BitVec 32) (s : State) : (writeMaxreq m s).port = s.port := rfl

/-! `beginAcquisition` -/

@[simp] theorem beginAcquisition_key (s : State) : (beginAcquisition s).key = s.key := rfl
@[simp] theorem beginAcquisition_bypass (s : State) : (beginAcquisition s).bypass = s.bypass := rfl
@[simp] theorem beginAcquisition_maxreq (s : State) : (beginAcquisition s).maxreq = s.maxreq := rfl
@[simp] theorem beginAcquisition_state (s : State) : (beginAcquisition s).state = .running := rfl
@[simp] theorem beginAcquisition_err (s : State) : (beginAcquisition s).err = .none := rfl
@[simp] theorem beginAcquisition_illcmd (s : State) : (beginAcquisition s).illcmd = s.illcmd := rfl
@[simp] theorem beginAcquisition_reqcnt (s : State) : (beginAcquisition s).reqcnt = 0#32 := rfl
@[simp] theorem beginAcquisition_co2v (s : State) : (beginAcquisition s).co2v = false := rfl
@[simp] theorem beginAcquisition_co2val (s : State) : (beginAcquisition s).co2val = 0#16 := rfl
@[simp] theorem beginAcquisition_tmpv (s : State) : (beginAcquisition s).tmpv = false := rfl
@[simp] theorem beginAcquisition_tmpraw (s : State) : (beginAcquisition s).tmpraw = 0#16 := rfl
@[simp] theorem beginAcquisition_ldf (s : State) : (beginAcquisition s).ldf = s.ldf := rfl
@[simp] theorem beginAcquisition_port (s : State) : (beginAcquisition s).port = s.port := rfl

/-! `abortAcquisition` -/

@[simp] theorem abortAcquisition_key (s : State) : (abortAcquisition s).key = s.key := rfl
@[simp] theorem abortAcquisition_bypass (s : State) : (abortAcquisition s).bypass = s.bypass := rfl
@[simp] theorem abortAcquisition_maxreq (s : State) : (abortAcquisition s).maxreq = s.maxreq := rfl
@[simp] theorem abortAcquisition_state (s : State) : (abortAcquisition s).state = .failed := rfl
@[simp] theorem abortAcquisition_err (s : State) : (abortAcquisition s).err = .xportRead := rfl
@[simp] theorem abortAcquisition_illcmd (s : State) : (abortAcquisition s).illcmd = s.illcmd := rfl
@[simp] theorem abortAcquisition_reqcnt (s : State) : (abortAcquisition s).reqcnt = s.reqcnt := rfl
@[simp] theorem abortAcquisition_co2v (s : State) : (abortAcquisition s).co2v = s.co2v := rfl
@[simp] theorem abortAcquisition_co2val (s : State) : (abortAcquisition s).co2val = s.co2val := rfl
@[simp] theorem abortAcquisition_tmpv (s : State) : (abortAcquisition s).tmpv = s.tmpv := rfl
@[simp] theorem abortAcquisition_tmpraw (s : State) : (abortAcquisition s).tmpraw = s.tmpraw := rfl
@[simp] theorem abortAcquisition_ldf (s : State) : (abortAcquisition s).ldf = s.ldf := rfl
@[simp] theorem abortAcquisition_port (s : State) : (abortAcquisition s).port = s.port := rfl

/-! `writeLdf` -/

@[simp] theorem writeLdf_key (d : Frame) (s : State) : (writeLdf d s).key = s.key := rfl
@[simp] theorem writeLdf_bypass (d : Frame) (s : State) : (writeLdf d s).bypass = s.bypass := rfl
@[simp] theorem writeLdf_maxreq (d : Frame) (s : State) : (writeLdf d s).maxreq = s.maxreq := rfl
@[simp] theorem writeLdf_state (d : Frame) (s : State) : (writeLdf d s).state = s.state := rfl
@[simp] theorem writeLdf_err (d : Frame) (s : State) : (writeLdf d s).err = s.err := rfl
@[simp] theorem writeLdf_illcmd (d : Frame) (s : State) : (writeLdf d s).illcmd = s.illcmd := rfl
@[simp] theorem writeLdf_reqcnt (d : Frame) (s : State) : (writeLdf d s).reqcnt = s.reqcnt := rfl
@[simp] theorem writeLdf_co2v (d : Frame) (s : State) : (writeLdf d s).co2v = s.co2v := rfl
@[simp] theorem writeLdf_co2val (d : Frame) (s : State) : (writeLdf d s).co2val = s.co2val := rfl
@[simp] theorem writeLdf_tmpv (d : Frame) (s : State) : (writeLdf d s).tmpv = s.tmpv := rfl
@[simp] theorem writeLdf_tmpraw (d : Frame) (s : State) : (writeLdf d s).tmpraw = s.tmpraw := rfl
@[simp] theorem writeLdf_ldf (d : Frame) (s : State) : (writeLdf d s).ldf = d := rfl
@[simp] theorem writeLdf_port (d : Frame) (s : State) : (writeLdf d s).port = s.port := rfl

/-! `countRequest` -/

@[simp] theorem countRequest_key (s : State) : (countRequest s).key = s.key := rfl
@[simp] theorem countRequest_bypass (s : State) : (countRequest s).bypass = s.bypass := rfl
@[simp] theorem countRequest_maxreq (s : State) : (countRequest s).maxreq = s.maxreq := rfl
@[simp] theorem countRequest_state (s : State) : (countRequest s).state = s.state := rfl
@[simp] theorem countRequest_err (s : State) : (countRequest s).err = s.err := rfl
@[simp] theorem countRequest_illcmd (s : State) : (countRequest s).illcmd = s.illcmd := rfl
@[simp] theorem countRequest_reqcnt (s : State) : (countRequest s).reqcnt = s.reqcnt + 1#32 := rfl
@[simp] theorem countRequest_co2v (s : State) : (countRequest s).co2v = s.co2v := rfl
@[simp] theorem countRequest_co2val (s : State) : (countRequest s).co2val = s.co2val := rfl
@[simp] theorem countRequest_tmpv (s : State) : (countRequest s).tmpv = s.tmpv := rfl
@[simp] theorem countRequest_tmpraw (s : State) : (countRequest s).tmpraw = s.tmpraw := rfl
@[simp] theorem countRequest_ldf (s : State) : (countRequest s).ldf = s.ldf := rfl
@[simp] theorem countRequest_port (s : State) : (countRequest s).port = s.port := rfl

/-! `withPort` -/

@[simp] theorem withPort_key (rest : List PortInput) (s : State) : (withPort rest s).key = s.key := rfl
@[simp] theorem withPort_bypass (rest : List PortInput) (s : State) : (withPort rest s).bypass = s.bypass := rfl
@[simp] theorem withPort_maxreq (rest : List PortInput) (s : State) : (withPort rest s).maxreq = s.maxreq := rfl
@[simp] theorem withPort_state (rest : List PortInput) (s : State) : (withPort rest s).state = s.state := rfl
@[simp] theorem withPort_err (rest : List PortInput) (s : State) : (withPort rest s).err = s.err := rfl
@[simp] theorem withPort_illcmd (rest : List PortInput) (s : State) : (withPort rest s).illcmd = s.illcmd := rfl
@[simp] theorem withPort_reqcnt (rest : List PortInput) (s : State) : (withPort rest s).reqcnt = s.reqcnt := rfl
@[simp] theorem withPort_co2v (rest : List PortInput) (s : State) : (withPort rest s).co2v = s.co2v := rfl
@[simp] theorem withPort_co2val (rest : List PortInput) (s : State) : (withPort rest s).co2val = s.co2val := rfl
@[simp] theorem withPort_tmpv (rest : List PortInput) (s : State) : (withPort rest s).tmpv = s.tmpv := rfl
@[simp] theorem withPort_tmpraw (rest : List PortInput) (s : State) : (withPort rest s).tmpraw = s.tmpraw := rfl
@[simp] theorem withPort_ldf (rest : List PortInput) (s : State) : (withPort rest s).ldf = s.ldf := rfl
@[simp] theorem withPort_port (rest : List PortInput) (s : State) : (withPort rest s).port = rest := rfl

/-! `fillSlot` -/

@[simp] theorem fillSlot_co2 (v : Value) (s : State) : fillSlot .co2 v s = { s with co2val := v, co2v := true } := rfl
@[simp] theorem fillSlot_temp (v : Value) (s : State) : fillSlot .temp v s = { s with tmpraw := v, tmpv := true } := rfl
@[simp] theorem fillSlot_unknown (v : Value) (s : State) : fillSlot .unknown v s = s := rfl
@[simp] theorem fillSlot_invalid (v : Value) (s : State) : fillSlot .invalid v s = s := rfl
@[simp] theorem fillSlot_key (c : FrameClass) (v : Value) (s : State) : (fillSlot c v s).key = s.key := by
  cases c <;> rfl
@[simp] theorem fillSlot_bypass (c : FrameClass) (v : Value) (s : State) : (fillSlot c v s).bypass = s.bypass := by
  cases c <;> rfl
@[simp] theorem fillSlot_maxreq (c : FrameClass) (v : Value) (s : State) : (fillSlot c v s).maxreq = s.maxreq := by
  cases c <;> rfl
@[simp] theorem fillSlot_state (c : FrameClass) (v : Value) (s : State) : (fillSlot c v s).state = s.state := by
  cases c <;> rfl
@[simp] theorem fillSlot_err (c : FrameClass) (v : Value) (s : State) : (fillSlot c v s).err = s.err := by
  cases c <;> rfl
@[simp] theorem fillSlot_illcmd (c : FrameClass) (v : Value) (s : State) : (fillSlot c v s).illcmd = s.illcmd := by
  cases c <;> rfl
@[simp] theorem fillSlot_reqcnt (c : FrameClass) (v : Value) (s : State) : (fillSlot c v s).reqcnt = s.reqcnt := by
  cases c <;> rfl
@[simp] theorem fillSlot_ldf (c : FrameClass) (v : Value) (s : State) : (fillSlot c v s).ldf = s.ldf := by
  cases c <;> rfl
@[simp] theorem fillSlot_port (c : FrameClass) (v : Value) (s : State) : (fillSlot c v s).port = s.port := by
  cases c <;> rfl

/-! `finish` and `stopTest` change STATE and ERR alone. -/

@[simp] theorem finish_key (s : State) : (finish s).key = s.key := by
  unfold finish; split <;> [rfl; (split <;> rfl)]
@[simp] theorem finish_bypass (s : State) : (finish s).bypass = s.bypass := by
  unfold finish; split <;> [rfl; (split <;> rfl)]
@[simp] theorem finish_maxreq (s : State) : (finish s).maxreq = s.maxreq := by
  unfold finish; split <;> [rfl; (split <;> rfl)]
@[simp] theorem finish_illcmd (s : State) : (finish s).illcmd = s.illcmd := by
  unfold finish; split <;> [rfl; (split <;> rfl)]
@[simp] theorem finish_reqcnt (s : State) : (finish s).reqcnt = s.reqcnt := by
  unfold finish; split <;> [rfl; (split <;> rfl)]
@[simp] theorem finish_co2v (s : State) : (finish s).co2v = s.co2v := by
  unfold finish; split <;> [rfl; (split <;> rfl)]
@[simp] theorem finish_co2val (s : State) : (finish s).co2val = s.co2val := by
  unfold finish; split <;> [rfl; (split <;> rfl)]
@[simp] theorem finish_tmpv (s : State) : (finish s).tmpv = s.tmpv := by
  unfold finish; split <;> [rfl; (split <;> rfl)]
@[simp] theorem finish_tmpraw (s : State) : (finish s).tmpraw = s.tmpraw := by
  unfold finish; split <;> [rfl; (split <;> rfl)]
@[simp] theorem finish_ldf (s : State) : (finish s).ldf = s.ldf := by
  unfold finish; split <;> [rfl; (split <;> rfl)]
@[simp] theorem finish_port (s : State) : (finish s).port = s.port := by
  unfold finish; split <;> [rfl; (split <;> rfl)]
@[simp] theorem stopTest_key (s : State) : (stopTest s).key = s.key := by
  unfold stopTest; split <;> simp
@[simp] theorem stopTest_bypass (s : State) : (stopTest s).bypass = s.bypass := by
  unfold stopTest; split <;> simp
@[simp] theorem stopTest_maxreq (s : State) : (stopTest s).maxreq = s.maxreq := by
  unfold stopTest; split <;> simp
@[simp] theorem stopTest_illcmd (s : State) : (stopTest s).illcmd = s.illcmd := by
  unfold stopTest; split <;> simp
@[simp] theorem stopTest_reqcnt (s : State) : (stopTest s).reqcnt = s.reqcnt := by
  unfold stopTest; split <;> simp
@[simp] theorem stopTest_co2v (s : State) : (stopTest s).co2v = s.co2v := by
  unfold stopTest; split <;> simp
@[simp] theorem stopTest_co2val (s : State) : (stopTest s).co2val = s.co2val := by
  unfold stopTest; split <;> simp
@[simp] theorem stopTest_tmpv (s : State) : (stopTest s).tmpv = s.tmpv := by
  unfold stopTest; split <;> simp
@[simp] theorem stopTest_tmpraw (s : State) : (stopTest s).tmpraw = s.tmpraw := by
  unfold stopTest; split <;> simp
@[simp] theorem stopTest_ldf (s : State) : (stopTest s).ldf = s.ldf := by
  unfold stopTest; split <;> simp
@[simp] theorem stopTest_port (s : State) : (stopTest s).port = s.port := by
  unfold stopTest; split <;> simp

/-! `receive` leaves the configuration, the refusal flag and the host's inputs alone, and writes LDF. -/

@[simp] theorem receive_key (c : FrameClass) (d : Frame) (s : State) : (receive c d s).key = s.key := by
  unfold receive; split <;> simp
@[simp] theorem receive_bypass (c : FrameClass) (d : Frame) (s : State) : (receive c d s).bypass = s.bypass := by
  unfold receive; split <;> simp
@[simp] theorem receive_maxreq (c : FrameClass) (d : Frame) (s : State) : (receive c d s).maxreq = s.maxreq := by
  unfold receive; split <;> simp
@[simp] theorem receive_illcmd (c : FrameClass) (d : Frame) (s : State) : (receive c d s).illcmd = s.illcmd := by
  unfold receive; split <;> simp
@[simp] theorem receive_port (c : FrameClass) (d : Frame) (s : State) : (receive c d s).port = s.port := by
  unfold receive; split <;> simp
@[simp] theorem receive_ldf (c : FrameClass) (d : Frame) (s : State) : (receive c d s).ldf = d := by
  unfold receive; split <;> simp

end Sys2Proof.Machine
end

