-- ==== Sys2Proof/Laws/Ops.lean ====
section
/-! SUPPORT. Each shared operation, said once: everything it can do. The provers cite these instead of unfolding it. -/

namespace Sys2Proof.Machine

/-- `unlessRunning`: refused while RUNNING, performed otherwise. -/
theorem unlessRunning_running (c : CmdCode) (s t : State) (h : s.state = .running) :
    unlessRunning c s t = .next { s with illcmd := true } := by
  simp [unlessRunning, h, raiseIllegalCommand]

theorem unlessRunning_of_ne (c : CmdCode) (s t : State) (h : s.state ≠ .running) : unlessRunning c s t = .next t := by
  simp [unlessRunning, h]

/-- `whileRunning`: performed while RUNNING, refused otherwise. -/
theorem whileRunning_running (c : CmdCode) (s t : State) (h : s.state = .running) : whileRunning c s t = .next t := by
  simp [whileRunning, h]

theorem whileRunning_of_ne (c : CmdCode) (s t : State) (h : s.state ≠ .running) :
    whileRunning c s t = .next { s with illcmd := true } := by
  simp [whileRunning, h, raiseIllegalCommand]

/-- `finish` answers exactly one of the three ends. -/
theorem finish_cases (s : State) :
    (s.co2v = false ∧ finish s = { s with state := .failed, err := .missingCo2 }) ∨
    (s.co2v = true ∧ s.tmpv = false ∧ finish s = { s with state := .failed, err := .missingTemp }) ∨
    (s.co2v = true ∧ s.tmpv = true ∧ finish s = { s with state := .done, err := .none }) := by
  unfold finish
  cases s.co2v <;> cases s.tmpv <;> simp

/-- `continues` as a statement about numbers. -/
theorem continues_iff (n m : BitVec 32) (c t : Bool) :
    continues n m c t = true ↔ n.toNat < m.toNat ∧ ¬(c = true ∧ t = true) := by
  cases c <;> cases t <;> simp [continues, BitVec.ult]

/-- `stopTest` leaves the state alone while it continues, and finishes otherwise. -/
theorem stopTest_cases (s : State) :
    (s.reqcnt.toNat < s.maxreq.toNat ∧ ¬(s.co2v = true ∧ s.tmpv = true) ∧ stopTest s = s) ∨
    ((s.maxreq.toNat ≤ s.reqcnt.toNat ∨ (s.co2v = true ∧ s.tmpv = true)) ∧ stopTest s = finish s) := by
  unfold stopTest
  split
  · rename_i h
    rw [continues_iff] at h
    exact .inl ⟨h.1, h.2, rfl⟩
  · rename_i h
    rw [continues_iff] at h
    refine .inr ⟨?_, rfl⟩
    by_cases h1 : s.reqcnt.toNat < s.maxreq.toNat
    · exact .inr (by_contra fun h2 => h ⟨h1, h2⟩)
    · exact .inl (by omega)

/-- `receive` outside RUNNING writes LDF and nothing else. -/
theorem receive_of_ne (c : FrameClass) (d : Frame) (s : State) (h : s.state ≠ .running) :
    receive c d s = { s with ldf := d } := by
  simp [receive, h, writeLdf]

/-- `receive` while RUNNING. -/
theorem receive_running (c : FrameClass) (d : Frame) (s : State) (h : s.state = .running) :
    receive c d s = stopTest (countRequest (fillSlot c (valueOf d) (writeLdf d s))) := by
  simp [receive, h]

/-- `stopTest` on a RUNNING state, as the end state and error of rules R183 and R186. -/
theorem stopTest_running (s : State) (h : s.state = .running) :
    stopTest s = { s with
      state := Safety.stateAfterFrame s.reqcnt s.maxreq s.co2v s.tmpv
      err := Safety.errAfterFrame s.err s.reqcnt s.maxreq s.co2v s.tmpv } := by
  obtain ⟨h1, h2, h3⟩ | ⟨h1, h2⟩ := stopTest_cases s
  · rw [h3, Safety.stateAfterFrame, Safety.errAfterFrame, if_pos ⟨h1, h2⟩, if_pos ⟨h1, h2⟩, ← h]
  · have hstop : ¬(s.reqcnt.toNat < s.maxreq.toNat ∧ ¬(s.co2v = true ∧ s.tmpv = true)) := by
      rintro ⟨a, b⟩
      exact h1.elim (fun h => absurd a (by omega)) b
    rw [h2, Safety.stateAfterFrame, Safety.errAfterFrame, if_neg hstop, if_neg hstop]
    obtain ⟨a, b⟩ | ⟨a, b, c⟩ | ⟨a, b, c⟩ := finish_cases s <;> simp [*]

/-- Everything `receive` does while RUNNING, field by field (R181). -/
theorem receive_running_eq (c : FrameClass) (d : Frame) (s : State) (h : s.state = .running) :
    receive c d s = { s with
      ldf := d
      co2v := s.co2v || decide (c = .co2)
      co2val := if c = .co2 then valueOf d else s.co2val
      tmpv := s.tmpv || decide (c = .temp)
      tmpraw := if c = .temp then valueOf d else s.tmpraw
      reqcnt := s.reqcnt + 1#32
      state := Safety.stateAfterFrame (s.reqcnt + 1#32) s.maxreq (s.co2v || decide (c = .co2)) (s.tmpv || decide (c = .temp))
      err := Safety.errAfterFrame s.err (s.reqcnt + 1#32) s.maxreq (s.co2v || decide (c = .co2))
        (s.tmpv || decide (c = .temp)) } := by
  rw [receive_running _ _ _ h, stopTest_running _ (by simp [h])]
  cases c <;> simp [countRequest, writeLdf, fillSlot]

/-- `step` with nothing presented. -/
theorem step_waiting (s : State) (h : s.port = []) : step s = .next s := by
  simp [step, readInput, h]

/-- `issue` runs the instruction of its word on the state itself. -/
theorem step_presentCommand (w : CmdWord) (s : State) : step (presentCommand w s) = exec (decode (.command w)) s := by
  simp [step, readInput, presentCommand, withPort]

end Sys2Proof.Machine
end

