-- ==== Sys2Proof/Laws/Exec.lean ====
section
/-! SUPPORT. The inversion of exec: everything an instruction can do, said once. -/

namespace Sys2Proof.Machine

open Sys2Proof.Safety

/-- A next state is the refusal of R214, or the effect of one of the commands, or what `receive` gives for a frame. -/
theorem exec_cases (i : Instr) (s t : State) (h : exec i s = .next t) :
   (refused i s = true ∧ t = {s with illcmd := true}) ∨
   (refused i s = false ∧ ((∃ d, i = .nop d ∧ t = s) ∨ (∃ d, i = .setkey d ∧ s.state ≠ .running ∧ t = writeKey d s) ∨
     (∃ d, i = .setbyp d ∧ s.state ≠ .running ∧ t = writeBypass (bypassOperand d) s) ∨
     (∃ d, i = .setmax d ∧ s.state ≠ .running ∧ t = writeMaxreq (maxOperand d) s) ∨
     (∃ d, i = .start d ∧ s.state ≠ .running ∧ t = beginAcquisition s) ∨
     (∃ d, i = .xerr d ∧ s.state = .running ∧ t = abortAcquisition s) ∨
     (isFrame i = true ∧ ∃ c d, t = receive c d s))) := by
  cases i with
  | nop d => cases h; exact .inr ⟨by simp [refused, refusedIn], .inl ⟨d, rfl, rfl⟩⟩
  | setkey d =>
    simp only [exec, execSetkey, unlessRunning] at h
    split at h <;> cases h
    · left; simp [refused, refusedIn, *, raiseIllegalCommand]
    · right; simp [refused, refusedIn, *, keyOperand]
  | setbyp d =>
    simp only [exec, execSetbyp, unlessRunning] at h
    split at h <;> cases h
    · left; simp [refused, refusedIn, *, raiseIllegalCommand]
    · right; simp [refused, refusedIn, *]
  | setmax d =>
    simp only [exec, execSetmax, unlessRunning] at h
    split at h <;> cases h
    · left; simp [refused, refusedIn, *, raiseIllegalCommand]
    · right; simp [refused, refusedIn, *]
  | start d =>
    simp only [exec, execStart, unlessRunning] at h
    split at h <;> cases h
    · left; simp [refused, refusedIn, *, raiseIllegalCommand]
    · right; simp [refused, refusedIn, *]
  | xerr d =>
    simp only [exec, execXerr, whileRunning] at h
    split at h <;> cases h
    · right; simp [refused, refusedIn, *]
    · left; simp [refused, refusedIn, *, raiseIllegalCommand]
  | reserved7 d => cases h; left; simp [refused, refusedIn, raiseIllegalCommand]
  | reserved8F low d =>
    cases h; left
    obtain ⟨h0, h1, h2, h3, h4, h5, h6, h7⟩ := highCode_ne low
    simp only [refused, codeOf_reserved8F, refusedIn, h0,h1,h2,h3,h4,h5,h6]; simp [raiseIllegalCommand]
  | frame d => cases h; exact .inr ⟨by simp [refused, refusedIn], by simp [isFrame]; exact ⟨_, _, rfl⟩⟩
  | frameCo2 d => cases h; exact .inr ⟨by simp [refused], by simp [isFrame]; exact ⟨_, _, rfl⟩⟩
  | frameTemp d => cases h; exact .inr ⟨by simp [refused], by simp [isFrame]; exact ⟨_, _, rfl⟩⟩
  | frameUnknown d => cases h; exact .inr ⟨by simp [refused], by simp [isFrame]; exact ⟨_, _, rfl⟩⟩
  | frameInvalid d => cases h; exact .inr ⟨by simp [refused], by simp [isFrame]; exact ⟨_, _, rfl⟩⟩

end Sys2Proof.Machine
end

