-- ==== Sys2Proof/Laws/PerInstr.lean ====
section
/-! SUPPORT. Statements for every instruction, one lemma per constructor. Family TableMatch: the word of an instruction is a
word of its row of spec/opcode_table.json. -/

namespace Sys2Proof.Laws.TableMatch

open Sys2Proof.Machine

/-- The encoder's word agrees with the row's match on the row's mask. -/
def Statement (i : Instr) : Prop :=
  WellFormed i → (tableRow i).fits (encode i) = true

/-- A command word under the mask of CMD is its code, shifted. -/
theorem cmdWord_and_codeMask (c : CmdCode) (data : Data) :
    cmdWord c data &&& 0xF0000000000000000#68 = c ++ 0#64 := by
  have h : 0xF0000000000000000#68 = 0xF#4 ++ 0#64 := by decide
  have h4 : c &&& 0xF#4 = c := by
    revert c; decide
  rw [h, cmdWord]
  erw [BitVec.and_append, h4]
  simp

/-- A command word under the mask of its top bit. -/
theorem cmdWord_and_topMask (c : CmdCode) (data : Data) :
    cmdWord c data &&& 0x80000000000000000#68 = (c &&& 0x8#4) ++ 0#64 := by
  have h : 0x80000000000000000#68 = 0x8#4 ++ 0#64 := by decide
  rw [h, cmdWord]
  erw [BitVec.and_append]
  simp

theorem highCode_and_top (low : BitVec 3) : (1#1 ++ low) &&& 0x8#4 = 0x8#4 := by
  revert low; decide

/-- A valid frame's word has its type, terminator and zero bytes under the mask of the frame rows. -/
theorem dfWord_and_typeMask (ty : Byte) (v : Value) :
    dfWord ty v &&& 0xFF000000FFFFFFFF#64 = ty ++ 0x0000000D000000#56 := by
  apply BitVec.eq_of_getLsbD_eq
  intro j hj
  simp only [dfWord, BitVec.getLsbD_and, BitVec.getLsbD_append]
  interval_cases j <;> simp

theorem dfWord_and_lowMask (ty : Byte) (v : Value) :
    dfWord ty v &&& 0x00000000FFFFFFFF#64 = 0x000000000D000000#64 := by
  apply BitVec.eq_of_getLsbD_eq
  intro j hj
  simp only [dfWord, BitVec.getLsbD_and, BitVec.getLsbD_append]
  interval_cases j <;> simp

theorem nop (data : Data) : Statement (.nop data) := fun _ => by
  simp [tableRow, encode, TableRow.fits, cmdWord_and_codeMask]

theorem setkey (data : Data) : Statement (.setkey data) := fun _ => by
  simp [tableRow, encode, TableRow.fits, cmdWord_and_codeMask]

theorem setbyp (data : Data) : Statement (.setbyp data) := fun _ => by
  simp [tableRow, encode, TableRow.fits, cmdWord_and_codeMask]

theorem setmax (data : Data) : Statement (.setmax data) := fun _ => by
  simp [tableRow, encode, TableRow.fits, cmdWord_and_codeMask]

theorem start (data : Data) : Statement (.start data) := fun _ => by
  simp [tableRow, encode, TableRow.fits, cmdWord_and_codeMask]

theorem frame (data : Data) : Statement (.frame data) := fun _ => by
  simp [tableRow, encode, TableRow.fits, cmdWord_and_codeMask]

theorem xerr (data : Data) : Statement (.xerr data) := fun _ => by
  simp [tableRow, encode, TableRow.fits, cmdWord_and_codeMask]

theorem reserved7 (data : Data) : Statement (.reserved7 data) := fun _ => by
  simp [tableRow, encode, TableRow.fits, cmdWord_and_codeMask]

theorem reserved8F (low : BitVec 3) (data : Data) : Statement (.reserved8F low data) := fun _ => by
  simp [tableRow, encode, TableRow.fits, cmdWord_and_topMask, highCode_and_top]

theorem frameCo2 (value : Value) : Statement (.frameCo2 value) := fun _ => by
  simp [tableRow, encode, TableRow.fits, dfWord_and_typeMask, typeCo2]

theorem frameTemp (value : Value) : Statement (.frameTemp value) := fun _ => by
  simp [tableRow, encode, TableRow.fits, dfWord_and_typeMask, typeTemp]

theorem frameUnknown (ty : Byte) (value : Value) : Statement (.frameUnknown ty value) := fun _ => by
  simp [tableRow, encode, TableRow.fits, dfWord_and_lowMask]

theorem frameInvalid (d : Frame) : Statement (.frameInvalid d) := fun _ => by
  simp [tableRow, encode, TableRow.fits]

end Sys2Proof.Laws.TableMatch
end

