-- ==== Sys2Proof/Tests/Slice0.lean ====
section
/-! SUPPORT. Tests. Every expected value is the spec's: 95_test_vectors.md (vectors V-C, V-V, V-T, V-K, V-A), the examples in the
rules, or a word written out from the encoding tables. The witnesses at the end meet the hypotheses of the obligations. -/

namespace Sys2Proof.Tests

open Sys2Proof.Machine Sys2Proof.Safety

/-- The outcome is a next state that meets `p`. -/
def nextIs (o : Result) (p : State → Bool) : Bool :=
  match o with
  | .next s => p s
  | .fault _ => false
  | .refused _ => false

/-- One step on the written word. -/
def after (w : CmdWord) (s : State) : Result :=
  step { s with port := [.command w] }

/-- RUNNING after START from reset, with a budget. -/
def running (m : BitVec 32) : State :=
  { State.reset with maxreq := m, state := .running }

/-- DONE, as V-A8 leaves it. -/
def doneState : State :=
  { running 10#32 with state := .done, co2v := true, co2val := 100#16, tmpv := true, tmpraw := 0x1185#16, reqcnt := 2#32 }

/-- C100, T4485 and Z of 95_test_vectors.md section 2.5, and V-C6 (UNKNOWN). -/
def c100 : Data := 0x82A326E07A090F86#64
def t4485 : Data := 0x8BA3B6E081090FA6#64
def zero : Data := 0#64
def unknownRaw : Data := 0x04A3AEE08B090F3E#64

/-! ### WellFormed refuses an ill-formed term of each check -/

theorem test_wf_unknown_co2 : ¬ WellFormed (.frameUnknown 0x50#8 100#16) := by decide

theorem test_wf_unknown_temp : ¬ WellFormed (.frameUnknown 0x42#8 100#16) := by decide

theorem test_wf_invalid_valid : ¬ WellFormed (.frameInvalid 0x500064B40D000000#64) := by decide

theorem test_wf_good : WellFormed (.frameUnknown 0x41#8 0x1234#16) ∧ WellFormed (.frameInvalid 0#64) := by decide

/-! ### Words written out bit by bit from R70, R71, R74 and R75 -/

theorem test_decode_nop : decode (.command (0b0000#4 ++ 0xFFFFFFFFFFFFFFFF#64)) = .nop 0xFFFFFFFFFFFFFFFF#64 := by decide

theorem test_decode_setkey : decode (.command (0b0001#4 ++ 0x0123456789ABCDEF#64)) = .setkey 0x0123456789ABCDEF#64 := by
  decide

theorem test_decode_setbyp : decode (.command (0b0010#4 ++ 1#64)) = .setbyp 1#64 := by decide

theorem test_decode_setmax : decode (.command (0b0011#4 ++ 0xFFFFFFFF00000007#64)) = .setmax 0xFFFFFFFF00000007#64 := by
  decide

theorem test_decode_start : decode (.command (0b0100#4 ++ 0#64)) = .start 0#64 := by decide

theorem test_decode_frame : decode (.command (0b0101#4 ++ 0x82A326E07A090F86#64)) = .frame 0x82A326E07A090F86#64 := by
  decide

theorem test_decode_xerr : decode (.command (0b0110#4 ++ 0#64)) = .xerr 0#64 := by decide

theorem test_decode_reserved7 : decode (.command (0b0111#4 ++ 5#64)) = .reserved7 5#64 := by decide

theorem test_decode_reserved8F :
    decode (.command (0b1000#4 ++ 5#64)) = .reserved8F 0b000#3 5#64 ∧
    decode (.command (0b1001#4 ++ 5#64)) = .reserved8F 0b001#3 5#64 ∧
    decode (.command (0b1111#4 ++ 5#64)) = .reserved8F 0b111#3 5#64 := by decide

/-- TYPE 50, VALUE 0064, CSUM B4, TERM 0D, zeros (source S2). -/
theorem test_decode_frameCo2 :
    decode (.frame (0x50#8 ++ 0x00#8 ++ 0x64#8 ++ 0xB4#8 ++ 0x0D#8 ++ 0x00#8 ++ 0x00#8 ++ 0x00#8)) = .frameCo2 100#16 := by
  decide

/-- TYPE 42, VALUE 1185, CSUM D8 (source S3). -/
theorem test_decode_frameTemp :
    decode (.frame (0x42#8 ++ 0x11#8 ++ 0x85#8 ++ 0xD8#8 ++ 0x0D#8 ++ 0x00#8 ++ 0x00#8 ++ 0x00#8)) = .frameTemp 4485#16 := by
  decide

/-- V-V5 and V-V6. -/
theorem test_decode_frameUnknown :
    decode (.frame 0x411234870D000000#64) = .frameUnknown 0x41#8 4660#16 ∧
    decode (.frame 0x000000000D000000#64) = .frameUnknown 0x00#8 0#16 := by decide

/-- V-V7 (terminator), V-V8 (checksum). -/
theorem test_decode_frameInvalid :
    decode (.frame 0x500064B40C000000#64) = .frameInvalid 0x500064B40C000000#64 ∧
    decode (.frame 0x500064B50D000000#64) = .frameInvalid 0x500064B50D000000#64 := by decide

/-- V-V4 and V-V13: the checksum the encoder computes wraps. -/
theorem test_encode_wraps :
    encode (.frameCo2 0xFFFF#16) = .frame 0x50FFFF4E0D000000#64 ∧
    encode (.frameTemp 0xFFFF#16) = .frame 0x42FFFF400D000000#64 := by decide

theorem test_decodeBits_rejects : decodeBits 73 0 = .error (.noFormat 73) := by rfl

/-! ### Cipher: 95_test_vectors.md section 2.1 -/

theorem test_subkey_from_seed_text :
    (List.ofFn seed).map BitVec.toNat = "Htemp99e".toList.map Char.toNat := by decide

theorem test_cipher_valid_frames :
    decipher 0x82A326E07A090F86#64 0x844756D607939356#64 false = 0x500064B40D000000#64 ∧
    decipher 0x8BA3B6E081090FA6#64 0x844756D607939356#64 false = 0x421185D80D000000#64 ∧
    decipher 0xE7A326E07D090FE6#64 0x844756D607939356#64 false = 0x500000500D000000#64 ∧
    decipher 0xFFA326E075090FF6#64 0x844756D607939356#64 false = 0x50FFFF4E0D000000#64 ∧
    decipher 0x08A3B6E08F090F2E#64 0x844756D607939356#64 false = 0x4212B5090D000000#64 ∧
    decipher 0x04A3AEE08B090F3E#64 0x844756D607939356#64 false = 0x411234870D000000#64 := by decide

theorem test_cipher_corners :
    decipher 0x0000000000000000#64 0x844756D607939356#64 false = 0x4C419404B95FDF14#64 ∧
    decipher 0xFFFFFFFFFFFFFFFF#64 0x844756D607939356#64 false = 0xAB30BF4F387AFA3F#64 ∧
    decipher 0x0001020304050607#64 0x844756D607939356#64 false = 0x2C811404193F1F74#64 ∧
    decipher 0xE03BA6E27D090F66#64 0x844756D607939356#64 false = 0x0000000000000000#64 := by decide

/-- V-C10: P of the bytes 00 to 07 is PERM itself; V-C1: X and Y. -/
theorem test_cipher_stages :
    permute 0x0001020304050607#64 = 0x0204000701060503#64 ∧
    permute 0x82A326E07A090F86#64 = 0x267A8286A30F09E0#64 ∧
    keystream 0x82A326E07A090F86#64 0x844756D607939356#64 = 0xD447BA8A14939356#64 := by decide

/-- V-C7, V-C7b, V-C12, V-C13, V-C14. -/
theorem test_cipher_other_keys :
    decipher 0xD4A4A2B63D9A9C50#64 0#64 false = 0x500064B40D000000#64 ∧
    decipher 0xDDA432B6C69A9C70#64 0#64 false = 0x421185D80D000000#64 ∧
    decipher 0x500064B40D000000#64 0x844756D607939356#64 true = 0x500064B40D000000#64 ∧
    decipher 0x82A326E07A090F86#64 0x844756D607939356#64 true = 0x82A326E07A090F86#64 ∧
    decipher 0x82A326E07A090F86#64 0#64 false = 0x8088FA7ACDCE4EE6#64 := by decide

/-- R112 against V-C1 and V-C7. -/
theorem test_encipher :
    encipher 0x500064B40D000000#64 0x844756D607939356#64 = 0x82A326E07A090F86#64 ∧
    encipher 0x500064B40D000000#64 0#64 = 0xD4A4A2B63D9A9C50#64 := by decide

/-! ### Validator: 95_test_vectors.md section 2.2 -/

/-- LTOK, LCOK, LCLS and LVAL of a frame, read as outputs. -/
def read4 (d : Frame) : Bool × Bool × FrameClass × Nat :=
  let o := outputs { State.reset with ldf := d }
  (o.ltok, o.lcok, o.lcls, o.lval.toNat)

theorem test_validator_good :
    read4 0x500064B40D000000#64 = (true, true, .co2, 100) ∧
    read4 0x421185D80D000000#64 = (true, true, .temp, 4485) ∧
    read4 0x50FFFF4E0D000000#64 = (true, true, .co2, 65535) ∧
    read4 0x411234870D000000#64 = (true, true, .unknown, 4660) ∧
    read4 0x000000000D000000#64 = (true, true, .unknown, 0) ∧
    read4 0x42FFFF400D000000#64 = (true, true, .temp, 65535) := by decide

theorem test_validator_bad :
    read4 0x500064B40C000000#64 = (false, true, .invalid, 100) ∧
    read4 0x500064B50D000000#64 = (true, false, .invalid, 100) ∧
    read4 0x500064B40D000001#64 = (false, true, .invalid, 100) ∧
    read4 0x0000000000000000#64 = (false, true, .invalid, 0) ∧
    read4 0x500064B30C000000#64 = (false, false, .invalid, 100) ∧
    read4 0x500064B40D010000#64 = (false, true, .invalid, 100) := by decide

/-- P3's outputs: LDF = 0x4C419404B95FDF14 reads LVAL = 16788. -/
theorem test_validator_noise : read4 0x4C419404B95FDF14#64 = (false, false, .invalid, 16788) := by decide

/-- V-T1, V-T2, V-T3, V-T4, V-T7. -/
theorem test_celsius_exact :
    celsiusExact 0#16 = -5463 / 20 ∧ celsiusExact 0x1112#16 = -1 / 40 ∧ celsiusExact 0x1113#16 = 3 / 80 ∧
    celsiusExact 0x1185#16 = 573 / 80 ∧ celsiusExact 0xFFFF#16 = 305823 / 80 := by
  norm_num [celsiusExact]

/-! ### Configuration commands: 95_test_vectors.md section 2.4, one step each -/

theorem test_setkey : nextIs (after 0x10000000000000000#68 State.reset) (fun t => t.key == 0#64 && !t.illcmd) = true := by
  decide

theorem test_setkey_running :
    nextIs (after 0x10000000000000000#68 (running 50#32)) (fun t => t.key == 0x844756D607939356#64 && t.illcmd) = true := by
  decide

theorem test_setbyp : nextIs (after 0x20000000000000001#68 State.reset) (fun t => t.bypass) = true := by decide

theorem test_setbyp_bit0 :
    nextIs (after 0x20000000000000002#68 { State.reset with bypass := true }) (fun t => !t.bypass) = true := by decide

theorem test_setmax : nextIs (after 0x3FFFFFFFF00000007#68 State.reset) (fun t => t.maxreq == 7#32) = true := by decide

theorem test_setmax_running :
    nextIs (after 0x30000000000000003#68 (running 50#32)) (fun t => t.maxreq == 50#32 && t.illcmd) = true := by decide

theorem test_nop_running : nextIs (after 0x00000000000000000#68 (running 50#32)) (fun t => t == running 50#32) = true := by
  decide

theorem test_reserved7 :
    nextIs (after 0x70000000000000000#68 State.reset) (fun t => t == { State.reset with illcmd := true }) = true := by decide

theorem test_reserved9_running :
    nextIs (after 0x90000000000000000#68 (running 50#32)) (fun t => t == { running 50#32 with illcmd := true }) = true := by
  decide

/-! ### Acquisition commands: 95_test_vectors.md section 2.5, one step each -/

/-- V-A1. -/
theorem test_start_running :
    nextIs (after 0x40000000000000000#68 (running 50#32)) (fun t => t == { running 50#32 with illcmd := true }) = true := by
  decide

/-- V-A13: START from DONE clears the result and keeps LDF. -/
theorem test_start_done :
    nextIs (after 0x40000000000000000#68 { doneState with ldf := 7#64 })
      (fun t => t == { running 10#32 with ldf := 7#64 }) = true := by decide

/-- V-A3: FRAME in IDLE writes LDF only. -/
theorem test_frame_idle :
    nextIs (after 0x582A326E07A090F86#68 State.reset)
      (fun t => t == { State.reset with ldf := 0x500064B40D000000#64 }) = true := by decide

/-- V-A11: both slots fill on the request that reaches the budget: DONE. -/
theorem test_frame_done_at_budget :
    nextIs (after 0x58BA3B6E081090FA6#68 { running 2#32 with co2v := true, co2val := 100#16, reqcnt := 1#32 })
      (fun t => decide (t.state = .done) && t.reqcnt == 2#32 && t.tmpraw == 0x1185#16 && (outputs t).rv) = true := by decide

/-- V-A2 and V-A7. -/
theorem test_xerr_idle :
    nextIs (after 0x60000000000000000#68 State.reset) (fun t => t == { State.reset with illcmd := true }) = true := by decide

theorem test_xerr_running :
    nextIs (after 0x60000000000000000#68 (running 0#32))
      (fun t => decide (t.state = .failed) && decide (t.err = .xportRead) && t.reqcnt == 0#32) = true := by decide

/-! ### The frame-class rows, presented by withFetchWord; the budget corners of V-A4 to V-A9 -/

/-- P2: budget 0, a CO2 frame: MISSING_TEMP after one frame. -/
theorem test_row_co2 :
    nextIs (step ((running 0#32).withFetchWord 64 0x500064B40D000000))
      (fun t => decide (t.state = .failed) && decide (t.err = .missingTemp) && t.co2val == 100#16 && t.reqcnt == 1#32) = true := by
  decide

/-- V-A5: MISSING_CO2 takes precedence with the temperature slot filled. -/
theorem test_row_temp :
    nextIs (step ((running 1#32).withFetchWord 64 0x421185D80D000000))
      (fun t => decide (t.state = .failed) && decide (t.err = .missingCo2) && t.tmpv && t.tmpraw == 0x1185#16) = true := by
  decide

theorem test_row_unknown :
    decodeTableWord 32 0x0D000000 = some (.frameUnknown 0#8 0#16) ∧
    nextIs (step (State.reset.withFetchWord 32 0x0D000000)) (fun t => t.ldf == 0x0D000000#64) = true := by decide

/-- P4 line 5: a bad checksum while RUNNING only counts. -/
theorem test_row_invalid :
    nextIs (step ({ running 5#32 with bypass := true, co2v := true, co2val := 100#16, reqcnt := 1#32 }.withFetchWord 64
      0x500064B50D000000)) (fun t => decide (t.state = .running) && t.reqcnt == 2#32 && t.co2val == 100#16) = true := by decide

theorem test_withFetchWord_command :
    decodeTableWord 72 0x70000000000000000 = some (.reserved7 0#64) ∧
    nextIs (step (State.reset.withFetchWord 72 0x70000000000000000)) (fun t => t.illcmd) = true := by decide

/-- R240: RESET during an acquisition. -/
theorem test_reset :
    nextIs (step { running 3#32 with key := 1#64, illcmd := true, port := [.reset] }) (fun t => t == State.reset) = true := by
  decide

/-! ### Textual syntax (R78) -/

theorem test_asm_lines :
    assembleText "NOP".toList = some 0x00000000000000000#68 ∧
    assembleText "SETMAX 10".toList = some 0x3000000000000000A#68 ∧
    assembleText "SETMAX 4294967295".toList = some 0x300000000FFFFFFFF#68 ∧
    assembleText "SETBYP 1".toList = some 0x20000000000000001#68 ∧
    assembleText "FRAME 0xD4A4A2B63D9A9C50".toList = some 0x5D4A4A2B63D9A9C50#68 := by decide

theorem test_asm_rejects :
    assembleText "SETMAX 4294967296".toList = none ∧ assembleText "SETKEY 0x00".toList = none ∧
    assembleText "SETBYP 2".toList = none ∧ assembleText "START 1".toList = none := by decide

/-! ### Witnesses: states and operands that meet the hypotheses of the obligations -/

/-- FAILED, as V-A6 leaves it. -/
def failedState : State :=
  { running 0#32 with state := .failed, err := .missingCo2, reqcnt := 1#32 }

theorem witness_DecodeOfEncode :
    WellFormed (.nop 0#64) ∧ WellFormed (.frameUnknown 0x51#8 0#16) ∧ WellFormed (.frameInvalid 0x500064B40C000000#64) := by
  decide

theorem witness_CommandRowsSeparate :
    tableRow (.nop 0#64) ∈ commandRows ∧ tableRow (.reserved8F 7#3 0#64) ∈ commandRows := by decide

theorem witness_UnusedDataIgnored :
    (0xFFFFFFFFFFFFFFFE#64).getLsbD 0 = (0#64).getLsbD 0 ∧
    (0xFFFFFFFF00000007#64).extractLsb' 0 32 = (7#64).extractLsb' 0 32 ∧ State.reset.state ≠ .running := by decide

/-- At the edges 0, 64, 65, 72 and 73. -/
theorem witness_TableWordsRun :
    0 ≤ 72 ∧ 64 ≤ 72 ∧ 65 ≤ 72 ∧ 72 ≤ 72 ∧ 72 < 73 ∧ (decodeTableWord 72 0).isSome ∧ (decodeTableWord 73 0).isNone := by decide

/-- ResetAbandonsAcquisition, and the RUNNING clauses of the command statements. -/
theorem witness_running : (running 0#32).state = .running ∧ (running 0xFFFFFFFF#32).state = .running := by decide

/-- The clauses of the command statements outside RUNNING, in each STATE. -/
theorem witness_not_running :
    State.reset.state ≠ .running ∧ doneState.state ≠ .running ∧ failedState.state ≠ .running := by decide

theorem witness_InputsBetweenCommands : State.reset.port = [] := by decide

/-- At both edges of the reserved codes. -/
theorem witness_ReservedWordsOnlySetIllcmd :
    7 ≤ (cmdCode 0x70000000000000000#68).toNat ∧ 7 ≤ (cmdCode 0xF0000000000000000#68).toNat := by decide

theorem witness_ConfigHeldForAcquisition :
    (running 5#32).state = .running ∧ exec (.setkey 1#64) (running 5#32) = .next { running 5#32 with illcmd := true } ∧
    runAcquisition [] State.reset = .next (running 50#32) ∧ NoRefusal State.reset := ⟨rfl, rfl, rfl, rfl⟩

/-- A frame of each class while RUNNING under the reset key, and a filled slot that another command leaves. -/
theorem witness_SlotUpdateByClass :
    classify (decipher c100 (running 5#32).key (running 5#32).bypass) = .co2 ∧
    classify (decipher t4485 (running 5#32).key (running 5#32).bypass) = .temp ∧
    classify (decipher unknownRaw (running 5#32).key (running 5#32).bypass) = .unknown ∧
    classify (decipher zero (running 5#32).key (running 5#32).bypass) = .invalid ∧
    doneState.co2v = true ∧ doneState.tmpv = true ∧ codeOf (.nop 0#64) ≠ some 0x4#4 := by decide

theorem witness_SlotUpdateByClass_next : exec (.nop 0#64) doneState = .next doneState := rfl

theorem witness_OnlyTrustedFramesAccumulate :
    ∃ t, exec (.frame c100) (running 5#32) = .next t ∧ t.co2v ≠ (running 5#32).co2v :=
  ⟨_, rfl, by decide⟩

theorem witness_DiscardedRowsOnlyCount :
    WellFormed (.frameUnknown 0x41#8 0x1234#16) ∧ WellFormed (.frameInvalid 0x500064B50D000000#64) := by decide

/-- With MAXREQ = 0, and a frame of each accumulating class. -/
theorem witness_FirstFrameAlwaysCounts :
    ({ State.reset with maxreq := 0#32 } : State).state ≠ .running ∧
    classify (decipher c100 State.reset.key State.reset.bypass) = .co2 ∧
    classify (decipher t4485 State.reset.key State.reset.bypass) = .temp := by decide

theorem witness_RefusalFollowsTable :
    refusedIn (cmdCode 0x60000000000000000#68) State.reset.state = true ∧
    refusedIn (cmdCode 0x60000000000000000#68) (running 0#32).state = false ∧
    refusedIn (cmdCode 0x40000000000000000#68) (running 0#32).state = true ∧ 7 ≤ (0x7#4 : CmdCode).toNat := by decide

theorem witness_IllcmdClearedByResetOnly :
    refused (.reserved7 0#64) State.reset = true ∧
    exec (.reserved7 0#64) State.reset = .next { State.reset with illcmd := true } ∧
    step { State.reset with illcmd := true } = .next { State.reset with illcmd := true } ∧
    step { State.reset with illcmd := true, port := [.reset] } = .next State.reset := ⟨by decide, rfl, rfl, rfl⟩

theorem witness_WrittenByTable :
    exec (.setkey 0#64) State.reset = .next { State.reset with key := 0#64 } ∧
    readPort .key { State.reset with key := 0#64 } ≠ readPort .key State.reset := ⟨rfl, by decide⟩

theorem witness_StateMoves :
    exec (.start 0#64) State.reset = .next (running 50#32) ∧ State.reset.state ≠ .running := ⟨rfl, by decide⟩

/-- A failure of each cause, a DONE end, and a command that leaves ERR. -/
theorem witness_FailureCauses :
    nextIs (exec (.frame zero) (running 1#32)) (fun t => decide (t.state = .failed) && decide (t.err = .missingCo2)) = true ∧
    nextIs (exec (.frame c100) (running 1#32)) (fun t => decide (t.state = .failed) && decide (t.err = .missingTemp)) = true ∧
    nextIs (exec (.xerr 0#64) (running 1#32)) (fun t => decide (t.state = .failed) && decide (t.err = .xportRead)) = true ∧
    nextIs (exec (.frame t4485) { running 2#32 with co2v := true, reqcnt := 1#32 }) (fun t => decide (t.state = .done)) = true ∧
    nextIs (exec (.nop 0#64) failedState) (fun t => decide (t.err = failedState.err)) = true ∧
    failedState.state ≠ .running ∧ codeOf (.nop 0#64) ≠ some 0x4#4 := by decide

/-- One frame before the largest budget, RUNNING: the invariants hold there. -/
theorem inv_last_request : Inv { running 0xFFFFFFFF#32 with reqcnt := 0xFFFFFFFE#32 } := by
  constructor <;> decide

theorem inv_budget_zero : Inv (running 0#32) := by
  constructor <;> decide

theorem witness_StepKeepsInvariants : Inv (running 0#32) ∧ step (running 0#32) = .next (running 0#32) :=
  ⟨inv_budget_zero, rfl⟩

theorem witness_InvariantsOnEveryRun :
    Host.Core.run core 1 ({ State.reset with port := [.command 0x40000000000000000#68] } : State) = .next (running 50#32) := rfl

/-- At both ends of the count: no frame counted with budget 0, and the last request of the largest budget. -/
theorem witness_CountNeverWraps :
    Inv (running 0#32) ∧ Inv { running 0xFFFFFFFF#32 with reqcnt := 0xFFFFFFFE#32 } ∧ (running 0#32).state = .running ∧
    isFrame (.frame zero) = true ∧ (∃ t, exec (.frame zero) (running 0#32) = .next t) ∧
    (∃ t, exec (.frame zero) { running 0xFFFFFFFF#32 with reqcnt := 0xFFFFFFFE#32 } = .next t) ∧
    exec (.nop 0#64) doneState = .next doneState ∧ codeOf (.nop 0#64) ≠ some 0x4#4 ∧
    (isFrame (.nop 0#64) = true → doneState.state ≠ .running) :=
  ⟨inv_budget_zero, inv_last_request, rfl, rfl, ⟨_, rfl⟩, ⟨_, rfl⟩, rfl, by decide, by decide⟩

theorem witness_ReadingsDetermineState :
    ∀ n : PortName, readPort n State.reset = readPort n { State.reset with port := [.reset] } := by
  intro n; cases n <;> rfl

theorem witness_ResultStaysReadable :
    doneState.state = .done ∧ failedState.state = .failed ∧ doneState.state ≠ .running ∧
    codeOf (.setmax 3#64) ≠ some 0x4#4 ∧ exec (.setmax 3#64) doneState = .next { doneState with maxreq := 3#32 } :=
  ⟨rfl, rfl, by decide, by decide, rfl⟩

/-- Budget 0 and one invalid report: the bound 1 is reached exactly. -/
theorem witness_AcquisitionIsBounded :
    ({ State.reset with maxreq := 0#32 } : State).state ≠ .running ∧
    max ({ State.reset with maxreq := 0#32 } : State).maxreq.toNat 1 ≤ [TransportRead.report zero].length ∧
    classify (decipher zero State.reset.key State.reset.bypass) = .invalid := by decide

theorem witness_bit_indexes : 0 < 64 ∧ 60 < 64 ∧ 61 < 64 ∧ 63 < 64 := by decide

theorem witness_SubtractionLanesIndependent : byteAt 0x00FF000000000000#64 0 = byteAt 0x0000000000000001#64 0 := by decide

theorem witness_ChecksumModulo256 :
    (0x500064B40D000000#64 : Frame).extractLsb' 32 32 = (0x500064B400000001#64 : Frame).extractLsb' 32 32 := by decide

theorem witness_ClassByChecksAndType :
    terminatorOk 0x500064B40C000000#64 = false ∧ checksumOk 0x500064B50D000000#64 = false ∧
    terminatorOk 0x500064B40D000000#64 = true ∧ checksumOk 0x500064B40D000000#64 = true := by decide

theorem witness_ClassificationCorners :
    terminatorOk 0x000000000D000000#64 = true ∧ checksumOk 0x000000000D000000#64 = true ∧
    byteAt 0x000000000D000000#64 0 = 0#8 ∧ byteAt 0x500064B40D010000#64 0 = 0x50#8 ∧ byteAt 0x500064B40D010000#64 5 ≠ 0#8 ∧
    byteAt 0x421185D80D000001#64 0 = 0x42#8 ∧ byteAt 0x421185D80D000001#64 7 ≠ 0#8 := by decide

theorem witness_SourceDecodePair :
    classify 0x500064B40D000000#64 = .co2 ∧ classify 0x421185D80D000000#64 = .temp ∧
    classify 0x411234870D000000#64 = .unknown ∧ classify 0#64 = .invalid := by decide

end Sys2Proof.Tests
end

namespace Sys2Proof.Proofs

open Sys2Proof.Machine

/-- Settles O8: the state in question is `presentCommand w` of the state whose port holds the remaining inputs. -/
theorem stepRunsCommand : Obligations.StepRunsCommand := by
  intro w rest s
  exact step_presentCommand w (withPort rest s)

end Sys2Proof.Proofs

namespace Sys2Proof.Proofs

open Sys2Proof.Machine Sys2Proof.Safety

/-! ### What one step, and one frame, can do -/

/-- The inversion of `step`: the machine waits, runs the decoded command, or resets (R225, R70, R240). -/
theorem step_cases {s t : State} (h : step s = .next t) :
    (s.port = [] ∧ t = s) ∨
    (∃ w rest, s.port = .command w :: rest ∧ exec (decode (.command w)) (withPort rest s) = .next t) ∨
    (∃ rest, s.port = .reset :: rest ∧ t = applyReset rest) := by
  unfold step readInput at h
  match hport : s.port with
  | [] =>
    rw [hport] at h
    cases h
    exact .inl ⟨rfl, rfl⟩
  | .command w :: rest =>
    rw [hport] at h
    exact .inr (.inl ⟨w, rest, rfl, h⟩)
  | .reset :: rest =>
    rw [hport] at h
    cases h
    exact .inr (.inr ⟨rest, rfl, rfl⟩)

/-- The four verdicts of the stop test (R183, R186), on STATE and ERR together. -/
theorem afterFrame_cases (old : ErrKind) (n m : BitVec 32) (c t : Bool) :
    (stateAfterFrame n m c t = .running ∧ errAfterFrame old n m c t = old ∧ n.toNat < m.toNat ∧ ¬(c = true ∧ t = true)) ∨
    (stateAfterFrame n m c t = .done ∧ errAfterFrame old n m c t = .none ∧ c = true ∧ t = true) ∨
    (stateAfterFrame n m c t = .failed ∧ errAfterFrame old n m c t = .missingCo2 ∧ c = false) ∨
    (stateAfterFrame n m c t = .failed ∧ errAfterFrame old n m c t = .missingTemp ∧ c = true ∧ t = false) := by
  by_cases hgo : n.toNat < m.toNat ∧ ¬(c = true ∧ t = true)
  · simp [stateAfterFrame, errAfterFrame, hgo]
  · rw [stateAfterFrame, errAfterFrame, if_neg hgo, if_neg hgo]
    cases c <;> cases t <;> simp

/-- The four ends of a frame received while RUNNING, in terms of the state it leaves. -/
theorem receive_running_cases {c : FrameClass} {d : Frame} {s t : State} (hrun : s.state = .running)
    (ht : t = receive c d s) :
    (t.state = .running ∧ t.err = s.err ∧ t.reqcnt.toNat < s.maxreq.toNat ∧ ¬(t.co2v = true ∧ t.tmpv = true)) ∨
    (t.state = .done ∧ t.err = .none ∧ t.co2v = true ∧ t.tmpv = true) ∨
    (t.state = .failed ∧ t.err = .missingCo2 ∧ t.co2v = false) ∨
    (t.state = .failed ∧ t.err = .missingTemp ∧ t.co2v = true ∧ t.tmpv = false) := by
  rw [ht, receive_running_eq c d s hrun]
  exact afterFrame_cases _ _ _ _ _

theorem receive_running_reqcnt (c : FrameClass) (d : Frame) {s : State} (hrun : s.state = .running) :
    (receive c d s).reqcnt = s.reqcnt + 1#32 := by
  rw [receive_running_eq c d s hrun]

/-- A CO2 slot that a frame leaves empty was empty, with the same value register (R184). -/
theorem receive_co2_empty {c : FrameClass} {d : Frame} {s : State} (hempty : (receive c d s).co2v = false) :
    s.co2v = false ∧ (receive c d s).co2val = s.co2val := by
  by_cases hrun : s.state = .running
  · rw [receive_running_eq c d s hrun] at hempty ⊢
    simp_all
  · rw [receive_of_ne c d s hrun] at hempty ⊢
    exact ⟨hempty, rfl⟩

/-- A temperature slot that a frame leaves empty was empty, with the same value register (R184). -/
theorem receive_temp_empty {c : FrameClass} {d : Frame} {s : State} (hempty : (receive c d s).tmpv = false) :
    s.tmpv = false ∧ (receive c d s).tmpraw = s.tmpraw := by
  by_cases hrun : s.state = .running
  · rw [receive_running_eq c d s hrun] at hempty ⊢
    simp_all
  · rw [receive_of_ne c d s hrun] at hempty ⊢
    exact ⟨hempty, rfl⟩

/-! ### The invariants of R34 and R26, operation by operation -/

/-- The invariants speak of neither KEY, BYPASS, ILLCMD, LDF nor the host's inputs. -/
theorem inv_of_others_written {s : State} (h : Inv s) (key : BitVec 64) (bypass illcmd : Bool) (ldf : BitVec 64)
    (port : List PortInput) :
    Inv { s with key := key, bypass := bypass, illcmd := illcmd, ldf := ldf, port := port } :=
  ⟨h.done, h.running, h.idle, h.co2Empty, h.tmpEmpty, h.errFailed⟩

/-- Only the RUNNING invariant mentions MAXREQ, and SETMAX is refused there. -/
theorem inv_writeMaxreq {s : State} (h : Inv s) (hrun : s.state ≠ .running) (m : BitVec 32) : Inv (writeMaxreq m s) :=
  ⟨h.done, fun hr => absurd hr hrun, h.idle, h.co2Empty, h.tmpEmpty, h.errFailed⟩

theorem inv_beginAcquisition (s : State) : Inv (beginAcquisition s) := by
  constructor <;> simp

theorem inv_abortAcquisition {s : State} (h : Inv s) : Inv (abortAcquisition s) where
  done := by simp
  running := by simp
  idle := by simp
  co2Empty := h.co2Empty
  tmpEmpty := h.tmpEmpty
  errFailed := by simp

/-- A frame keeps the invariants: outside RUNNING it writes LDF alone, and while RUNNING each verdict of the stop test is the
invariant of the STATE it leads to. -/
theorem inv_receive {s : State} (h : Inv s) (c : FrameClass) (d : Frame) : Inv (receive c d s) := by
  by_cases hrun : s.state = .running
  · obtain ⟨herr, -, -⟩ := h.running hrun
    have hco2 : (receive c d s).co2v = false → (receive c d s).co2val = 0#16 := fun hempty => by
      obtain ⟨hold, hval⟩ := receive_co2_empty hempty
      rw [hval, h.co2Empty hold]
    have htmp : (receive c d s).tmpv = false → (receive c d s).tmpraw = 0#16 := fun hempty => by
      obtain ⟨hold, hval⟩ := receive_temp_empty hempty
      rw [hval, h.tmpEmpty hold]
    obtain ⟨hst, he, hlt, hslots⟩ | ⟨hst, he, hc, ht⟩ | ⟨hst, he, hc⟩ | ⟨hst, he, hc, ht⟩ :=
      receive_running_cases hrun (rfl : receive c d s = _)
    · exact ⟨by simp [hst], fun _ => ⟨he.trans herr, hslots, .inr (by simpa using hlt)⟩, by simp [hst], hco2, htmp,
        by simp [hst, he, herr]⟩
    · exact ⟨fun _ => ⟨hc, ht, he⟩, by simp [hst], by simp [hst], hco2, htmp, by simp [hst, he]⟩
    · exact ⟨by simp [hst], by simp [hst], by simp [hst], hco2, htmp, by simp [hst, he]⟩
    · exact ⟨by simp [hst], by simp [hst], by simp [hst], hco2, htmp, by simp [hst, he]⟩
  · rw [receive_of_ne c d s hrun]
    exact inv_of_others_written h ..

/-- Every instruction keeps the invariants. -/
theorem exec_keeps_inv {i : Instr} {s t : State} (h : Inv s) (hexec : exec i s = .next t) : Inv t := by
  obtain ⟨-, rfl⟩ | ⟨-, heffect⟩ := exec_cases i s t hexec
  · exact inv_of_others_written h ..
  · obtain ⟨_, -, rfl⟩ | ⟨_, -, -, rfl⟩ | ⟨_, -, -, rfl⟩ | ⟨_, -, hrun, rfl⟩ | ⟨_, -, -, rfl⟩ | ⟨_, -, -, rfl⟩ |
      ⟨-, c, d, rfl⟩ := heffect
    · exact h
    · exact inv_of_others_written h ..
    · exact inv_of_others_written h ..
    · exact inv_writeMaxreq h hrun _
    · exact inv_beginAcquisition s
    · exact inv_abortAcquisition h
    · exact inv_receive h c d

/-- Settles O37: each invariant is read off the reset values of R20. -/
theorem resetMeetsInvariants : Obligations.ResetMeetsInvariants := by
  constructor <;> decide

/-- Settles O38: a waiting step changes nothing, a command keeps the invariants, and RESET establishes them. -/
theorem stepKeepsInvariants : Obligations.StepKeepsInvariants := by
  intro s t h hstep
  obtain ⟨-, rfl⟩ | ⟨w, rest, -, hexec⟩ | ⟨rest, -, rfl⟩ := step_cases hstep
  · exact h
  · exact exec_keeps_inv (inv_of_others_written h ..) hexec
  · exact inv_of_others_written resetMeetsInvariants ..

/-- A predicate that every step keeps holds at the end of every run that starts in it. -/
theorem run_keeps {M : Host.Core} {P : M.State → Prop} (hkeep : ∀ s t, P s → M.step s = .next t → P t) (k : Nat)
    (s t : M.State) (h : P s) (hrun : M.run k s = .next t) : P t := by
  induction k generalizing s with
  | zero =>
    cases hrun
    exact h
  | succ k ih =>
    rw [Host.Core.run] at hrun
    split at hrun
    · next s' hstep => exact ih s' (hkeep s s' h hstep) hrun
    · cases hrun
    · cases hrun

/-- Settles O39: reset meets the invariants whatever the host presents, and every step of the run keeps them. -/
theorem invariantsOnEveryRun : Obligations.InvariantsOnEveryRun := by
  intro inputs k t hrun
  exact run_keeps (M := core) (P := Inv) stepKeepsInvariants k _ t (inv_of_others_written resetMeetsInvariants ..) hrun

/-! ### ILLCMD -/

/-- ILLCMD after an instruction: as before, or set by a refusal (R27, R214). -/
theorem exec_illcmd {i : Instr} {s t : State} (hexec : exec i s = .next t) :
    t.illcmd = (s.illcmd || refused i s) := by
  obtain ⟨hr, rfl⟩ | ⟨hr, heffect⟩ := exec_cases i s t hexec
  · simp [hr]
  · obtain ⟨_, -, rfl⟩ | ⟨_, -, -, rfl⟩ | ⟨_, -, -, rfl⟩ | ⟨_, -, -, rfl⟩ | ⟨_, -, -, rfl⟩ | ⟨_, -, -, rfl⟩ |
      ⟨-, _, _, rfl⟩ := heffect <;> simp [hr]

/-- Settles O33: an instruction can only raise ILLCMD, and the one other step that writes it is RESET. -/
theorem illcmdClearedByResetOnly : Obligations.IllcmdClearedByResetOnly := by
  refine ⟨fun i s t hr hexec => ?_, fun s t hset hstep => ?_, fun rest s t hstep => ?_⟩
  · simp [exec_illcmd hexec, hr]
  · obtain ⟨-, rfl⟩ | ⟨w, rest, -, hexec⟩ | ⟨rest, hport, -⟩ := step_cases hstep
    · exact .inl hset
    · exact .inl (by simp [exec_illcmd hexec, hset])
    · exact .inr ⟨rest, hport⟩
  · cases hstep
    rfl

/-! ### Who writes what, and the moves of STATE, ERR and REQCNT -/

/-- Only the instructions that the table of R20 names change what a register reads. The effects of `exec_cases` are compared
with the table register by register: each operation's field lemmas leave only the readings it writes. -/
theorem mayWrite_of_reading_changed {n : PortName} {i : Instr} {s t : State} (hexec : exec i s = .next t)
    (hne : readPort n t ≠ readPort n s) : mayWrite n i s = true := by
  obtain ⟨hr, rfl⟩ | ⟨-, heffect⟩ := exec_cases i s t hexec
  · cases n <;> simp_all [readPort, mayWrite]
  · obtain ⟨_, rfl, rfl⟩ | ⟨_, rfl, -, rfl⟩ | ⟨_, rfl, -, rfl⟩ | ⟨_, rfl, -, rfl⟩ | ⟨_, rfl, -, rfl⟩ | ⟨_, rfl, -, rfl⟩ |
      ⟨hframe, _, _, rfl⟩ := heffect
    · exact absurd rfl hne
    all_goals cases n <;> simp_all [readPort, mayWrite]

/-- Settles O34: the table holds for every instruction, and the reset column is the reset state read register by register. -/
theorem writtenByTable : Obligations.WrittenByTable :=
  ⟨fun _ _ _ _ => mayWrite_of_reading_changed, by decide⟩

/-- Settles O35: only START, XERR and a frame received while RUNNING move STATE, the frame by the verdict of its stop test. -/
theorem stateMoves : Obligations.StateMoves := by
  refine ⟨fun i s t hexec => ?_, fun d s t hrun hexec => ?_, rfl, rfl, rfl, rfl, rfl⟩
  · obtain ⟨-, rfl⟩ | ⟨-, heffect⟩ := exec_cases i s t hexec
    · exact .inl rfl
    · obtain ⟨_, -, rfl⟩ | ⟨_, -, -, rfl⟩ | ⟨_, -, -, rfl⟩ | ⟨_, -, -, rfl⟩ | ⟨_, rfl, hrun, rfl⟩ | ⟨_, rfl, hrun, rfl⟩ |
        ⟨hframe, c, d, ht⟩ := heffect
      · exact .inl rfl
      · exact .inl rfl
      · exact .inl rfl
      · exact .inl rfl
      · exact .inr (.inl ⟨codeOf_start _, hrun, rfl⟩)
      · exact .inr (.inr ⟨.inr (codeOf_xerr _), hrun, .inr rfl⟩)
      · by_cases hrun : s.state = .running
        · obtain ⟨hst, -⟩ | ⟨hst, -⟩ | ⟨hst, -⟩ | ⟨hst, -⟩ := receive_running_cases hrun ht
          · exact .inl (hst.trans hrun.symm)
          · exact .inr (.inr ⟨.inl hframe, hrun, .inl hst⟩)
          · exact .inr (.inr ⟨.inl hframe, hrun, .inr hst⟩)
          · exact .inr (.inr ⟨.inl hframe, hrun, .inr hst⟩)
        · rw [ht, receive_of_ne c d s hrun]
          exact .inl rfl
  · cases (unlessRunning_of_ne 0x4#4 s (beginAcquisition s) hrun).symm.trans hexec
    rfl

/-- Outside RUNNING, START alone changes ERR (R26). -/
theorem exec_err_of_not_running {i : Instr} {s t : State} (hexec : exec i s = .next t) (hrun : s.state ≠ .running)
    (hstart : codeOf i ≠ some 0x4#4) : t.err = s.err := by
  obtain ⟨-, rfl⟩ | ⟨-, heffect⟩ := exec_cases i s t hexec
  · rfl
  · obtain ⟨_, -, rfl⟩ | ⟨_, -, -, rfl⟩ | ⟨_, -, -, rfl⟩ | ⟨_, -, -, rfl⟩ | ⟨_, rfl, -, -⟩ | ⟨_, -, hr, -⟩ |
      ⟨-, c, d, rfl⟩ := heffect
    · rfl
    · rfl
    · rfl
    · rfl
    · exact absurd (codeOf_start _) hstart
    · exact absurd hr hrun
    · rw [receive_of_ne c d s hrun]

/-- How an instruction can leave RUNNING: by XERR, or by a frame; any other leaves STATE as it is. -/
theorem exec_running_cases {i : Instr} {s t : State} (hexec : exec i s = .next t) (hrun : s.state = .running) :
    t.state = .running ∨ (codeOf i = some 0x6#4 ∧ t = abortAcquisition s) ∨
      (isFrame i = true ∧ ∃ c d, t = receive c d s) := by
  obtain ⟨-, rfl⟩ | ⟨-, heffect⟩ := exec_cases i s t hexec
  · exact .inl hrun
  · obtain ⟨_, -, rfl⟩ | ⟨_, -, hr, -⟩ | ⟨_, -, hr, -⟩ | ⟨_, -, hr, -⟩ | ⟨_, -, hr, -⟩ | ⟨_, rfl, -, ht⟩ |
      hframe := heffect
    · exact .inl hrun
    · exact absurd hrun hr
    · exact absurd hrun hr
    · exact absurd hrun hr
    · exact absurd hrun hr
    · exact .inr (.inl ⟨codeOf_xerr _, ht⟩)
    · exact .inr (.inr hframe)

/-- Settles O36: an acquisition ends by XERR or by a frame, and the frame's stop test gives the cause. -/
theorem failureCauses : Obligations.FailureCauses := by
  refine ⟨rfl, rfl, rfl, rfl, fun i s t hexec hrun => ?_, fun _ _ _ => exec_err_of_not_running⟩
  obtain hst | ⟨hcode, rfl⟩ | ⟨hframe, c, d, ht⟩ := exec_running_cases hexec hrun
  · simp [hst]
  · simp [hcode]
  · obtain ⟨hst, -⟩ | ⟨hst, he, hc, ht⟩ | ⟨hst, he, hc⟩ | ⟨hst, he, hc, ht⟩ := receive_running_cases hrun ht
    · simp [hst]
    · simp [hst, he, hframe, hc, ht]
    · simp [hst, he, hframe, hc]
    · simp [hst, he, hframe, hc, ht]

/-- An instruction that is a frame is received, whatever its class. -/
theorem exec_frame_receive {i : Instr} {s t : State} (hexec : exec i s = .next t) (hframe : isFrame i = true) :
    ∃ c d, t = receive c d s := by
  cases i with
  | frame | frameCo2 | frameTemp | frameUnknown | frameInvalid =>
    cases hexec
    exact ⟨_, _, rfl⟩
  | nop | setkey | setbyp | setmax | start | xerr | reserved7 | reserved8F => cases hframe

/-- START and a frame received while RUNNING aside, no instruction writes REQCNT (R28). -/
theorem exec_reqcnt {i : Instr} {s t : State} (hexec : exec i s = .next t) (hstart : codeOf i ≠ some 0x4#4)
    (hframe : isFrame i = true → s.state ≠ .running) : t.reqcnt = s.reqcnt := by
  obtain ⟨-, rfl⟩ | ⟨-, heffect⟩ := exec_cases i s t hexec
  · rfl
  · obtain ⟨_, -, rfl⟩ | ⟨_, -, -, rfl⟩ | ⟨_, -, -, rfl⟩ | ⟨_, -, -, rfl⟩ | ⟨_, rfl, -, -⟩ | ⟨_, -, -, rfl⟩ |
      ⟨hf, c, d, rfl⟩ := heffect
    · rfl
    · rfl
    · rfl
    · rfl
    · exact absurd (codeOf_start _) hstart
    · rfl
    · rw [receive_of_ne c d s (hframe hf)]

/-- Within the budget of R34 the increment of R185 does not wrap. -/
theorem toNat_succ_of_budget {n m : BitVec 32} (h : n = 0#32 ∨ n.toNat < m.toNat) :
    (n + 1#32).toNat = n.toNat + 1 ∧ n.toNat + 1 ≤ max m.toNat 1 := by
  obtain rfl | h := h
  · simp
  · have := m.isLt
    exact ⟨BitVec.toNat_add_of_lt (by simp; omega), by omega⟩

/-- Settles O40: the RUNNING invariant keeps the count below MAXREQ until the frame that adds 1. -/
theorem countNeverWraps : Obligations.CountNeverWraps := by
  refine ⟨fun d s t hrun hexec => ?_, fun i s t hinv hrun hframe hexec => ?_, fun _ _ _ => exec_reqcnt⟩
  · cases (unlessRunning_of_ne 0x4#4 s (beginAcquisition s) hrun).symm.trans hexec
    rfl
  · obtain ⟨c, d, rfl⟩ := exec_frame_receive hexec hframe
    obtain ⟨-, -, hbudget⟩ := hinv.running hrun
    obtain ⟨hsucc, hle⟩ := toNat_succ_of_budget hbudget
    rw [receive_running_reqcnt c d hrun, hsucc]
    exact ⟨rfl, hle⟩

/-! ### What the host reads -/

theorem stateCode_injective {p q : AcqState} (h : stateCode p = stateCode q) : p = q := by
  cases p <;> cases q <;> simp_all [stateCode]

theorem errCode_injective {e f : ErrKind} (h : errCode e = errCode f) : e = f := by
  cases e <;> cases f <;> simp_all [errCode]

theorem bool_toNat_injective {a b : Bool} (h : a.toNat = b.toNat) : a = b := by
  cases a <;> cases b <;> simp_all

/-- Settles O41: each register is recovered from its reading, since every encoding is one to one (R35). -/
theorem readingsDetermineState : Obligations.ReadingsDetermineState := by
  intro s t h
  have hkey : s.key = t.key := BitVec.eq_of_toNat_eq (h .key)
  have hbypass : s.bypass = t.bypass := bool_toNat_injective (h .bypass)
  have hmaxreq : s.maxreq = t.maxreq := BitVec.eq_of_toNat_eq (h .maxreq)
  have hstate : s.state = t.state := stateCode_injective (BitVec.eq_of_toNat_eq (h .state))
  have herr : s.err = t.err := errCode_injective (BitVec.eq_of_toNat_eq (h .err))
  have hillcmd : s.illcmd = t.illcmd := bool_toNat_injective (h .illcmd)
  have hreqcnt : s.reqcnt = t.reqcnt := BitVec.eq_of_toNat_eq (h .reqcnt)
  have hco2v : s.co2v = t.co2v := bool_toNat_injective (h .co2v)
  have hco2val : s.co2val = t.co2val := BitVec.eq_of_toNat_eq (h .co2val)
  have htmpv : s.tmpv = t.tmpv := bool_toNat_injective (h .tmpv)
  have htmpraw : s.tmpraw = t.tmpraw := BitVec.eq_of_toNat_eq (h .tmpraw)
  have hldf : s.ldf = t.ldf := BitVec.eq_of_toNat_eq (h .ldf)
  rw [← hkey, ← hbypass, ← hmaxreq, ← hstate, ← herr, ← hillcmd, ← hreqcnt, ← hco2v, ← hco2val, ← htmpv, ← htmpraw,
    ← hldf]

/-- VALUE as a number: D[55:40] (R133). -/
theorem toNat_valueOf (d : Frame) : (valueOf d).toNat = d.toNat / 2 ^ 40 % 2 ^ 16 := by
  rw [valueOf, BitVec.extractLsb'_toNat, Nat.shiftRight_eq_div_pow]

/-- Settles O42: each output is its definition in R32; LVAL and CO2PPM are read as numbers. -/
theorem derivedOutputs : Obligations.DerivedOutputs := by
  intro s
  have hco2ppm : (s.co2val.setWidth 32).toNat = s.co2val.toNat := BitVec.toNat_setWidth_of_le (by decide)
  have hrv : (s.state == .done) = true ↔ s.state = .done := beq_iff_eq
  exact ⟨rfl, rfl, rfl, toNat_valueOf s.ldf, hco2ppm, hrv, rfl, rfl, rfl, rfl⟩

end Sys2Proof.Proofs

namespace Sys2Proof.Proofs

open Sys2Proof.Machine Sys2Proof.Safety

/-! ### The round trip of encoder and decoder -/

/-- The word of a type code and a value passes both checks, so its type code alone tells its class (R134). -/
theorem classify_dfWord (ty : Byte) (v : Value) :
    classify (dfWord ty v) = if ty = typeCo2 then .co2 else if ty = typeTemp then .temp else .unknown := by
  simpa only [typeOf_dfWord] using classify_of_valid (dfWord ty v) (terminatorOk_dfWord ty v) (checksumOk_dfWord ty v)

/-! What the frame class map answers on a frame written by its fields, class by class (R75). -/

theorem decodeFrame_frameCo2 (v : Value) : decodeFrame (dfWord typeCo2 v) = .frameCo2 v := by
  simp [decodeFrame, classify_dfWord]

theorem decodeFrame_frameTemp (v : Value) : decodeFrame (dfWord typeTemp v) = .frameTemp v := by
  have hne : typeTemp ≠ typeCo2 := by decide
  simp [decodeFrame, classify_dfWord, hne]

theorem decodeFrame_frameUnknown {ty : Byte} (hco2 : ty ≠ typeCo2) (htemp : ty ≠ typeTemp) (v : Value) :
    decodeFrame (dfWord ty v) = .frameUnknown ty v := by
  simp [decodeFrame, classify_dfWord, hco2, htemp]

theorem decodeFrame_frameInvalid {d : Frame} (h : classify d = .invalid) : decodeFrame d = .frameInvalid d := by
  simp [decodeFrame, h]

/-- Settles O1: the decoder answers on the word of each constructor's fields with those fields. -/
theorem decodeOfEncode : Obligations.DecodeOfEncode := by
  intro i hwf
  cases i with
  | nop data => exact decodeCommand_nop data
  | setkey data => exact decodeCommand_setkey data
  | setbyp data => exact decodeCommand_setbyp data
  | setmax data => exact decodeCommand_setmax data
  | start data => exact decodeCommand_start data
  | frame data => exact decodeCommand_frame data
  | xerr data => exact decodeCommand_xerr data
  | reserved7 data => exact decodeCommand_reserved7 data
  | reserved8F low data => exact decodeCommand_reserved8F low data
  | frameCo2 v => exact decodeFrame_frameCo2 v
  | frameTemp v => exact decodeFrame_frameTemp v
  | frameUnknown ty v =>
    obtain ⟨hco2, htemp⟩ := (wellFormed_frameUnknown ty v).1 hwf
    exact decodeFrame_frameUnknown hco2 htemp v
  | frameInvalid d => exact decodeFrame_frameInvalid ((wellFormed_frameInvalid d).1 hwf)

/-- Every command word is the word of a command: its CMD names the command and its DATA is kept whole (R71, R72). -/
theorem exists_wellFormed_encode_command (w : CmdWord) : ∃ i, WellFormed i ∧ encode i = .command w := by
  rw [← cmdWord_fields w]
  generalize cmdCode w = c, cmdData w = data
  obtain rfl | rfl | rfl | rfl | rfl | rfl | rfl | rfl | hc := cmdCode_cases c
  · exact ⟨.nop data, rfl, rfl⟩
  · exact ⟨.setkey data, rfl, rfl⟩
  · exact ⟨.setbyp data, rfl, rfl⟩
  · exact ⟨.setmax data, rfl, rfl⟩
  · exact ⟨.start data, rfl, rfl⟩
  · exact ⟨.frame data, rfl, rfl⟩
  · exact ⟨.xerr data, rfl, rfl⟩
  · exact ⟨.reserved7 data, rfl, rfl⟩
  · rw [hc]
    exact ⟨.reserved8F (c.extractLsb' 0 3) data, rfl, rfl⟩

/-- Every frame is the word of its class: a valid frame is fixed by its type code and value (R74, R75). -/
theorem exists_wellFormed_encode_frame (d : Frame) : ∃ i, WellFormed i ∧ encode i = .frame d := by
  obtain ⟨hinv, -⟩ | ⟨hterm, hsum, hclass⟩ := classify_cases d
  · exact ⟨.frameInvalid d, (wellFormed_frameInvalid d).2 hinv, rfl⟩
  · have hd := dfWord_of_valid d hterm hsum
    obtain ⟨-, hty⟩ | ⟨-, hty⟩ | ⟨-, hco2, htemp⟩ := hclass
    · exact ⟨.frameCo2 (valueOf d), rfl, congrArg InstrWord.frame (hty ▸ hd)⟩
    · exact ⟨.frameTemp (valueOf d), rfl, congrArg InstrWord.frame (hty ▸ hd)⟩
    · exact ⟨.frameUnknown (typeOf d) (valueOf d), (wellFormed_frameUnknown ..).2 ⟨hco2, htemp⟩,
        congrArg InstrWord.frame hd⟩

/-- Settles O2: every word is the word of some well-formed instruction, which O1 says is the one it decodes to. -/
theorem encodeOfDecode : Obligations.EncodeOfDecode := by
  intro w
  obtain ⟨i, hwf, rfl⟩ : ∃ i, WellFormed i ∧ encode i = w := by
    cases w with
    | command w => exact exists_wellFormed_encode_command w
    | frame d => exact exists_wellFormed_encode_frame d
  rw [decodeOfEncode i hwf]
  exact ⟨hwf, rfl⟩

/-- Settles O3: the decoder is evaluated on each written word. -/
theorem writtenWordsDecode : Obligations.WrittenWordsDecode := by
  unfold Obligations.WrittenWordsDecode
  decide

/-! ### The command rows -/

/-- DATA has no part in which row a command word decodes to (R71). -/
theorem tableRow_decodeCommand_ignores_data (c : CmdCode) (data : Data) :
    tableRow (decodeCommand (cmdWord c data)) = tableRow (decodeCommand (cmdWord c 0#64)) := by
  simp only [decodeCommand, cmdCode_cmdWord]
  split_ifs <;> rfl

/-- No command row's mask has a bit of DATA (R71, R76). -/
theorem fits_ignores_data {r : TableRow} (hr : r ∈ commandRows) (c : CmdCode) (data : Data) :
    r.fits (.command (cmdWord c data)) = r.fits (.command (cmdWord c 0#64)) := by
  simp only [commandRows, List.mem_cons, List.not_mem_nil, or_false] at hr
  obtain rfl | rfl | rfl | rfl | rfl | rfl | rfl | rfl | rfl := hr <;>
    simp only [tableRow, TableRow.fits, Laws.TableMatch.cmdWord_and_codeMask, Laws.TableMatch.cmdWord_and_topMask]

/-- The sixteen codes against the nine rows, with DATA = 0 (R71). -/
theorem fits_iff_of_data_zero :
    ∀ c : CmdCode, ∀ r ∈ commandRows,
      (r.fits (.command (cmdWord c 0#64)) = true ↔ tableRow (decodeCommand (cmdWord c 0#64)) = r) := by
  decide

/-- Settles O4: neither side of the statement depends on DATA, and the codes are finitely many. -/
theorem commandRowsSeparate : Obligations.CommandRowsSeparate := by
  intro w r hr
  rw [← cmdWord_fields w, decode, fits_ignores_data hr, tableRow_decodeCommand_ignores_data]
  exact fits_iff_of_data_zero (cmdCode w) r hr

/-! ### The frame class map -/

/-- Agreement of two frames under a mask, byte by byte. -/
theorem and_eq_and_iff_byteAt (d e m : Frame) :
    d &&& m = e &&& m ↔ ∀ i, byteAt d i &&& byteAt m i = byteAt e i &&& byteAt m i := by
  have hand : ∀ x i, byteAt (x &&& m) i = byteAt x i &&& byteAt m i := fun _ _ => BitVec.extractLsb'_and
  simp only [← hand]
  exact ⟨fun h _ => by rw [h], eq_of_byteAt⟩

/-- The bytes of the mask of FRAME.CO2 and FRAME.TEMP: d0 and d4 to d7 (R75). -/
theorem byteAt_typeMask (i : Fin 8) :
    byteAt 0xFF000000FFFFFFFF#64 i = if i = 0 ∨ 4 ≤ i then 0xFF#8 else 0#8 := by
  revert i; decide

/-- The bytes of the mask of FRAME.UNKNOWN: d4 to d7 (R75). -/
theorem byteAt_lowMask (i : Fin 8) : byteAt 0x00000000FFFFFFFF#64 i = if 4 ≤ i then 0xFF#8 else 0#8 := by
  revert i; decide

/-- `BitVec.and_allOnes` in the spelling that simp gives the mask bytes. -/
theorem byte_and_ff (b : Byte) : b &&& 0xFF#8 = b :=
  BitVec.and_allOnes

/-- Agreement with the row FRAME.UNKNOWN is the terminator check (R75, R131). -/
theorem and_lowMask_eq_iff (d : Frame) :
    d &&& 0x00000000FFFFFFFF#64 = 0x000000000D000000#64 ↔ terminatorOk d = true := by
  rw [← Laws.TableMatch.dfWord_and_lowMask 0#8 0#16, and_eq_and_iff_byteAt, terminatorOk_iff]
  simp [Fin.forall_fin_succ, byteAt_lowMask, byteAt_dfWord, dfBytes, byte_and_ff]

/-- Agreement with the row of a named type is that type code and the terminator check (R75, R131). -/
theorem and_typeMask_eq_iff (d : Frame) (ty : Byte) :
    d &&& 0xFF000000FFFFFFFF#64 = ty ++ 0x0000000D000000#56 ↔ typeOf d = ty ∧ terminatorOk d = true := by
  rw [← Laws.TableMatch.dfWord_and_typeMask ty 0#16, and_eq_and_iff_byteAt, terminatorOk_iff]
  simp [Fin.forall_fin_succ, byteAt_typeMask, byteAt_dfWord, dfBytes, byte_and_ff, typeOf]

/-! Each class of a valid frame by its two checks and its type code (R134). -/

theorem classify_co2_iff (d : Frame) :
    classify d = .co2 ↔ typeOf d = typeCo2 ∧ terminatorOk d = true ∧ checksumOk d = true := by
  obtain ⟨hc, hbad⟩ | ⟨hterm, hsum, ⟨hc, hty⟩ | ⟨hc, hty⟩ | ⟨hc, hco2, htemp⟩⟩ := classify_cases d
  · exact iff_of_false (by simp [hc]) fun ⟨_, hok⟩ => hbad hok
  · simp [hc, hty, hterm, hsum]
  · simp [hc, hty, typeCo2, typeTemp]
  · simp [hc, hco2]

theorem classify_temp_iff (d : Frame) :
    classify d = .temp ↔ typeOf d = typeTemp ∧ terminatorOk d = true ∧ checksumOk d = true := by
  obtain ⟨hc, hbad⟩ | ⟨hterm, hsum, ⟨hc, hty⟩ | ⟨hc, hty⟩ | ⟨hc, hco2, htemp⟩⟩ := classify_cases d
  · exact iff_of_false (by simp [hc]) fun ⟨_, hok⟩ => hbad hok
  · simp [hc, hty, typeCo2, typeTemp]
  · simp [hc, hty, hterm, hsum]
  · simp [hc, htemp]

theorem classify_unknown_iff (d : Frame) :
    classify d = .unknown ↔
      terminatorOk d = true ∧ checksumOk d = true ∧ typeOf d ≠ typeCo2 ∧ typeOf d ≠ typeTemp := by
  obtain ⟨hc, hbad⟩ | ⟨hterm, hsum, ⟨hc, hty⟩ | ⟨hc, hty⟩ | ⟨hc, hco2, htemp⟩⟩ := classify_cases d
  · exact iff_of_false (by simp [hc]) fun ⟨hterm, hsum, _⟩ => hbad ⟨hterm, hsum⟩
  · simp [hc, hty]
  · simp [hc, hty]
  · simp [hc, hterm, hsum, hco2, htemp]

/-- Settles O5: agreement under each row's mask is the terminator check, with the type code where the row names one. -/
theorem classMapMatchMask : Obligations.ClassMapMatchMask := by
  intro d
  refine ⟨?_, ?_, ?_, ?_, rfl, rfl, rfl, rfl⟩
  · rw [classify_co2_iff, ← and_assoc, ← and_typeMask_eq_iff]
    rfl
  · rw [classify_temp_iff, ← and_assoc, ← and_typeMask_eq_iff]
    rfl
  · rw [classify_unknown_iff, and_lowMask_eq_iff]
    rfl
  · rw [classify_invalid_iff, not_and_or, Bool.not_eq_true, Bool.not_eq_true]

/-! ### Commands: reserved codes, DATA and the textual syntax -/

/-- A code of 7 or more is 0x7, or 8 plus three low bits (R71). -/
theorem cmdCode_reserved {c : CmdCode} (h : 7 ≤ c.toNat) : c = 0x7#4 ∨ c = 1#1 ++ c.extractLsb' 0 3 := by
  revert c; decide

/-- Either kind of reserved code is refused in every STATE (R76, R164). -/
theorem exec_decode_reserved {w : CmdWord} (h : 7 ≤ (cmdCode w).toNat) (s : State) :
    exec (decode (.command w)) s = .next { s with illcmd := true } := by
  rw [← cmdWord_fields w]
  generalize cmdCode w = c, cmdData w = data at h ⊢
  obtain rfl | hc := cmdCode_reserved h
  · rw [decode, decodeCommand_reserved7]
    rfl
  · rw [hc, decode, decodeCommand_reserved8F]
    rfl

/-- Settles O19: the step runs the word's instruction, and a reserved one raises ILLCMD. -/
theorem reservedWordsOnlySetIllcmd : Obligations.ReservedWordsOnlySetIllcmd := by
  intro w rest s h
  rw [stepRunsCommand w rest s, exec_decode_reserved h]

/-- A frame of a class that gives no value is only counted, and the stop test sees the slots as they were (R184). -/
theorem receive_running_discarded {c : FrameClass} (hco2 : c ≠ .co2) (htemp : c ≠ .temp) (d : Frame) {s : State}
    (hrun : s.state = .running) :
    receive c d s = { s with
      ldf := d
      reqcnt := s.reqcnt + 1#32
      state := stateAfterFrame (s.reqcnt + 1#32) s.maxreq s.co2v s.tmpv
      err := errAfterFrame s.err (s.reqcnt + 1#32) s.maxreq s.co2v s.tmpv } := by
  simp [receive_running_eq c d s hrun, hco2, htemp]

/-- Settles O29: both rows receive a frame of a class that fills no slot. -/
theorem discardedRowsOnlyCount : Obligations.DiscardedRowsOnlyCount := by
  refine ⟨fun ty v s _ => ⟨fun hrun => ?_, fun hrun => ?_⟩, fun d s _ => ⟨fun hrun => ?_, fun hrun => ?_⟩⟩
  · exact congrArg _ (receive_of_ne .unknown (dfWord ty v) s hrun)
  · exact congrArg _ (receive_running_discarded (by decide) (by decide) (dfWord ty v) hrun)
  · exact congrArg _ (receive_of_ne .invalid d s hrun)
  · exact congrArg _ (receive_running_discarded (by decide) (by decide) d hrun)

/-- Settles O6: each meaning reads DATA through its operand alone, and outside RUNNING the operand is what is loaded. -/
theorem unusedDataIgnored : Obligations.UnusedDataIgnored := by
  refine ⟨fun _ _ _ _ => ⟨rfl, rfl, rfl, rfl, rfl⟩, fun d d' s hbit => ?_, fun d d' s hlow => ?_,
    fun d s hrun => ⟨?_, ?_, ?_⟩, fun d s => ?_⟩
  · exact congrArg (fun b => unlessRunning 0x2#4 s (writeBypass b s)) hbit
  · exact congrArg (fun m => unlessRunning 0x3#4 s (writeMaxreq m s)) hlow
  · exact ⟨_, unlessRunning_of_ne _ _ _ hrun, fun _ => rfl⟩
  · exact ⟨_, unlessRunning_of_ne _ _ _ hrun, rfl⟩
  · exact ⟨_, unlessRunning_of_ne _ _ _ hrun, BitVec.extractLsb'_toNat ..⟩
  · exact ⟨_, rfl, receive_ldf _ _ s⟩

/-- Settles O7: each line assembles to a command word written by its fields, on which the decoder's answer is known. -/
theorem assembledLinesDecode : Obligations.AssembledLinesDecode :=
  ⟨decodeCommand_nop 0#64, decodeCommand_start 0#64, decodeCommand_xerr 0#64, decodeCommand_setkey,
    decodeCommand_setbyp 0#64, decodeCommand_setbyp 1#64, fun m => decodeCommand_setmax (m.setWidth 64),
    decodeCommand_frame, by decide⟩

end Sys2Proof.Proofs

namespace Sys2Proof.Proofs

open Sys2Proof.Machine

/-! ### The pieces of the cipher, bit by bit -/

theorem getLsbD_ror64 (x : BitVec 64) {j : Nat} (hj : j < 64) :
    (ror64 x 3).getLsbD j = x.getLsbD ((j + 3) % 64) := by
  rw [ror64_eq_rotateRight, BitVec.getLsbD_rotateRight]
  by_cases hlow : j < 61
  · simp [hlow, show (j + 3) % 64 = 3 + j by omega]
  · simp [hlow, hj, show (j + 3) % 64 = j - 61 by omega]

/-- The two parts of a rotated byte (R106): its own high five bits, and above them the low three bits of the byte before. -/
theorem byteAt_ror64 (x : BitVec 64) (i : Fin 8) :
    byteAt (ror64 x 3) i = (byteAt x i >>> 3) ||| (byteAt x (i + 7) <<< 5) := by
  apply BitVec.eq_of_getLsbD_eq
  intro j hj
  have hprev : (i + 7).val = (i.val + 7) % 8 := Fin.val_add i 7
  have hbit : 56 - 8 * i.val + j < 64 := by omega
  rw [BitVec.getLsbD_or, BitVec.getLsbD_ushiftRight, BitVec.getLsbD_shiftLeft]
  simp only [getLsbD_byteAt, getLsbD_ror64 x hbit, hj, hprev]
  by_cases hown : j < 5
  · simp [hown, show 3 + j < 8 by omega, show (56 - 8 * i.val + j + 3) % 64 = 56 - 8 * i.val + (3 + j) by omega]
  · simp [hown, show ¬ 3 + j < 8 by omega, show j - 5 < 8 by omega,
      show (56 - 8 * i.val + j + 3) % 64 = 56 - 8 * ((i.val + 7) % 8) + (j - 5) by omega]

/-- Bit `j` of the permuted word is a bit of the byte that PERM names (R103). -/
theorem getLsbD_permute (r : Frame) {j : Nat} (hj : j < 64) :
    (permute r).getLsbD j = r.getLsbD (56 - 8 * (perm ⟨7 - j / 8, by omega⟩).val + j % 8) := by
  rw [permute, getLsbD_be64 _ _ hj, getLsbD_byteAt]
  simp [Nat.mod_lt]

/-- Settles O48: bit `j` comes from bit `j + 3`, which lies in the same byte or in the one before. -/
theorem rotationByThree : Obligations.RotationByThree :=
  fun x => ⟨fun _ => getLsbD_ror64 x, byteAt_ror64 x⟩

/-- Settles O49: the bytes by the lane-wise subtraction, the bits by the wiring of the rotation and of the permutation. -/
theorem decipherBitWiring : Obligations.DecipherBitWiring := by
  intro r k
  refine ⟨decipher_bypass r k, fun i => ?_, fun j hj => ?_⟩
  · rw [decipher_clear, byteAt_subtractSubkey, keystream]
  · rw [getLsbD_ror64 _ hj, BitVec.getLsbD_xor, getLsbD_permute r (Nat.mod_lt _ (by decide))]

/-- Settles O50: each lane of the result is one subtraction of bytes, which wraps modulo 256 by itself. -/
theorem subtractionLanesIndependent : Obligations.SubtractionLanesIndependent := by
  refine ⟨fun y i => ?_, fun y z i h => ?_⟩
  · have hsub := (subkey i).isLt
    rw [byteAt_subtractSubkey, BitVec.toNat_sub]
    omega
  · rw [byteAt_subtractSubkey, byteAt_subtractSubkey, h]

/-! ### The inverse of R112 -/

@[simp] theorem permute_permute (r : Frame) : permute (permute r) = r := by
  apply eq_of_byteAt
  simp

/-- The inverse's first step: each byte plus SUBKEY of the same index, modulo 256 (R112). -/
def addSubkey (d : Frame) : BitVec 64 :=
  be64 fun i => byteAt d i + subkey i

@[simp] theorem byteAt_addSubkey (d : Frame) (i : Fin 8) : byteAt (addSubkey d) i = byteAt d i + subkey i := by
  simp [addSubkey]

@[simp] theorem subtractSubkey_addSubkey (d : Frame) : subtractSubkey (addSubkey d) = d := by
  apply eq_of_byteAt
  simp

@[simp] theorem addSubkey_subtractSubkey (y : BitVec 64) : addSubkey (subtractSubkey y) = y := by
  apply eq_of_byteAt
  simp

/-- `encipher` is made of the inverses of decipher's pieces in the opposite order; PERM is its own inverse. -/
theorem encipher_eq (d k : Frame) : encipher d k = permute (rol64 (addSubkey d) 3 ^^^ k) := rfl

theorem decipher_encipher (d k : Frame) : decipher (encipher d k) k false = d := by
  rw [decipher_clear, encipher_eq, keystream, permute_permute, BitVec.xor_assoc, BitVec.xor_self, BitVec.xor_zero,
    ror64_rol64, subtractSubkey_addSubkey]

theorem encipher_decipher (r k : Frame) : encipher (decipher r k false) k = r := by
  rw [decipher_clear, encipher_eq, keystream, addSubkey_subtractSubkey, rol64_ror64, BitVec.xor_assoc, BitVec.xor_self,
    BitVec.xor_zero, permute_permute]

/-- Settles O51: each piece of decipher is undone by its inverse, and byte PERM[i] of the report is byte i before PERM. -/
theorem decipherIsBijective : Obligations.DecipherIsBijective := by
  refine fun k => ⟨fun d => decipher_encipher d k, fun r => encipher_decipher r k, fun d i => ?_⟩
  rw [encipher_eq, byteAt_permute, perm_perm, addSubkey]

/-- Settles O46: the lists and the word are evaluated from the eight seed bytes. -/
theorem subkeyFromSeed : Obligations.SubkeyFromSeed :=
  ⟨fun _ => rfl, by decide, by decide, by decide, by decide⟩

/-- Settles O47: gather is the definition of the permuted word, and scatter is gather at PERM[i]. -/
theorem permutationIsInvolution : Obligations.PermutationIsInvolution := by
  refine ⟨by decide, perm_perm, fun r i => ⟨byteAt_permute r i, ?_⟩⟩
  rw [byteAt_permute, perm_perm]

/-! ### Table words, presented and run -/

/-- The report built for a frame deciphers to it, with and without bypass (R109, R112). -/
theorem decipher_reportFor (d k : Frame) (bypass : Bool) : decipher (reportFor d k bypass) k bypass = d := by
  cases bypass with
  | false => exact decipher_encipher d k
  | true => rfl

/-- The class row of a frame receives that frame: a valid frame is the word of its type code and value (R74, R75). -/
theorem exec_decodeFrame (d : Frame) (s : State) : exec (decodeFrame d) s = .next (receive (classify d) d s) := by
  obtain ⟨hc, -⟩ | ⟨hterm, hsum, hclass⟩ := classify_cases d
  · rw [decodeFrame, hc]
    rfl
  · have hd := dfWord_of_valid d hterm hsum
    obtain ⟨hc, hty⟩ | ⟨hc, hty⟩ | ⟨hc, -⟩ := hclass
    · rw [hty] at hd
      rw [decodeFrame, hc, exec, execFrameCo2, hd]
    · rw [hty] at hd
      rw [decodeFrame, hc, exec, execFrameTemp, hd]
    · rw [decodeFrame, hc, exec, execFrameUnknown, hd]

/-- FRAME on the report built for a frame is the class row of that frame (R181). -/
theorem exec_frame_reportFor (d : Frame) (s : State) :
    exec (.frame (reportFor d s.key s.bypass)) s = exec (decodeFrame d) s := by
  rw [exec_decodeFrame, exec, execFrame, frameOperand, decipher_reportFor]

/-- What `withFetchWord` presents is run by the next step as the instruction of that word. -/
theorem step_withFetchWord {nbits w : Nat} {iw : InstrWord} (h : wordOfBits nbits w = .ok iw) (s : State) :
    step (s.withFetchWord nbits w) = exec (decode iw) s := by
  rw [State.withFetchWord, presentBits, h]
  cases iw with
  | command c => exact step_presentCommand c s
  | frame d =>
    rw [step_presentCommand, decode, decodeCommand_frame]
    exact exec_frame_reportFor d s

theorem decodeTableWord_of_ok {nbits w : Nat} {iw : InstrWord} (h : wordOfBits nbits w = .ok iw) :
    decodeTableWord nbits w = some (decode iw) := by
  rw [decodeTableWord, decodeBits, h]

/-- Up to nine bytes are a word of one of the two formats (R70, R74). -/
theorem wordOfBits_of_le {nbits : Nat} (h : nbits ≤ 72) (w : Nat) : ∃ iw, wordOfBits nbits w = .ok iw := by
  by_cases hframe : nbits ≤ 64
  · exact ⟨_, if_pos hframe⟩
  · exact ⟨_, (if_neg hframe).trans (if_pos h)⟩

theorem decodeTableWord_of_gt {nbits : Nat} (h : 72 < nbits) (w : Nat) : decodeTableWord nbits w = none := by
  rw [decodeTableWord, decodeBits, wordOfBits, if_neg (by omega), if_neg (by omega)]

/-- Settles O9: the word of the bits decodes to a well-formed instruction (O2), which the step then runs. -/
theorem tableWordsRun : Obligations.TableWordsRun := by
  refine fun s nbits w => ⟨fun hle => ?_, fun hgt => decodeTableWord_of_gt hgt w⟩
  obtain ⟨iw, hword⟩ := wordOfBits_of_le hle w
  obtain ⟨hwf, -⟩ := encodeOfDecode iw
  exact ⟨decode iw, decodeTableWord_of_ok hword, hwf, step_withFetchWord hword s⟩

end Sys2Proof.Proofs

namespace Sys2Proof.Proofs

open Sys2Proof.Machine

/-! ### The accumulator and the checks -/

/-- A frame of a class that gives no value leaves both slots as they were, in every STATE (R184, R188). -/
theorem receive_keeps_slots {c : FrameClass} (hco2 : c ≠ .co2) (htemp : c ≠ .temp) (d : Frame) (s : State) :
    (receive c d s).co2v = s.co2v ∧ (receive c d s).co2val = s.co2val ∧
      (receive c d s).tmpv = s.tmpv ∧ (receive c d s).tmpraw = s.tmpraw := by
  by_cases hrun : s.state = .running
  · rw [receive_running_discarded hco2 htemp d hrun]
    exact ⟨rfl, rfl, rfl, rfl⟩
  · rw [receive_of_ne c d s hrun]
    exact ⟨rfl, rfl, rfl, rfl⟩

/-- Settles O25: a change rules out INVALID and UNKNOWN, which keep the slots; the other classes passed both checks. -/
theorem onlyTrustedFramesAccumulate : Obligations.OnlyTrustedFramesAccumulate := by
  intro data s t hexec hchanged d
  have ht : receive (classify d) d s = t := by
    cases hexec
    rfl
  have htrusted : classify d = .co2 ∨ classify d = .temp := by
    by_contra h
    obtain ⟨hco2, htemp⟩ := not_or.1 h
    obtain ⟨hco2v, hco2val, htmpv, htmpraw⟩ := receive_keeps_slots hco2 htemp d s
    rw [ht] at hco2v hco2val htmpv htmpraw
    exact hchanged.elim (· hco2v) (·.elim (· hco2val) (·.elim (· htmpv) (· htmpraw)))
  have hchecks : terminatorOk d = true ∧ checksumOk d = true :=
    htrusted.elim (fun hco2 => ((classify_co2_iff d).1 hco2).2) fun htemp => ((classify_temp_iff d).1 htemp).2
  exact ⟨hchecks.1, hchecks.2, htrusted⟩

/-! ### The fields of a frame -/

/-- A byte as a number: D[63-8i : 56-8i] (R9). -/
theorem toNat_byteAt (d : Frame) (i : Fin 8) : (byteAt d i).toNat = d.toNat / 2 ^ (56 - 8 * i.val) % 2 ^ 8 := by
  rw [byteAt, BitVec.extractLsb'_toNat, Nat.shiftRight_eq_div_pow]

/-- The bytes d0 to d3 are those of the high word D[63:32]. -/
theorem byteAt_high (d : Frame) {i : Fin 8} (hi : i.val < 4) :
    byteAt d i = (d.extractLsb' 32 32).extractLsb' (24 - 8 * i.val) 8 := by
  apply BitVec.eq_of_getLsbD_eq
  intro j hj
  have hin : 24 - 8 * i.val + j < 32 := by omega
  have hbit : 32 + (24 - 8 * i.val + j) = 56 - 8 * i.val + j := by omega
  simp [getLsbD_byteAt, hin, hbit]

/-- The bytes d0 to d2 of a frame written with d3 apart. -/
theorem byteAt_append_head (head : BitVec 24) (csum : Byte) (tail : BitVec 32) {i : Fin 8} (hi : i.val < 3) :
    byteAt (head ++ csum ++ tail) i = head.extractLsb' (16 - 8 * i.val) 8 := by
  have hstart : 56 - 8 * i.val - 32 - 8 = 16 - 8 * i.val := by omega
  rw [byteAt, BitVec.extractLsb'_append_eq_of_le (by omega), BitVec.extractLsb'_append_eq_of_le (by omega), hstart]

theorem byteAt_append_csum (head : BitVec 24) (csum : Byte) (tail : BitVec 32) :
    byteAt (head ++ csum ++ tail) 3 = csum :=
  (BitVec.extractLsb'_append_eq_of_le (by decide)).trans BitVec.extractLsb'_append_eq_right

/-- Settles O52: d4 to d7 are the digits of D[31:0] in base 256. -/
theorem terminatorByWord : Obligations.TerminatorByWord := by
  refine fun d => ⟨terminatorOk_iff d, (terminatorOk_iff d).trans ?_⟩
  have hlow : (d.extractLsb' 0 32).toNat = d.toNat % 2 ^ 32 := BitVec.extractLsb'_toNat 0 32 d
  have h4 : (byteAt d 4).toNat = d.toNat / 2 ^ 24 % 2 ^ 8 := toNat_byteAt d 4
  have h5 : (byteAt d 5).toNat = d.toNat / 2 ^ 16 % 2 ^ 8 := toNat_byteAt d 5
  have h6 : (byteAt d 6).toNat = d.toNat / 2 ^ 8 % 2 ^ 8 := toNat_byteAt d 6
  have h7 : (byteAt d 7).toNat = d.toNat / 2 ^ 0 % 2 ^ 8 := toNat_byteAt d 7
  simp only [← BitVec.toNat_inj, hlow, h4, h5, h6, h7, BitVec.toNat_ofNat]
  omega

/-- Settles O53: addition of bytes wraps modulo 256, and d0 to d3 are the bytes of the high word. -/
theorem checksumModulo256 : Obligations.ChecksumModulo256 := by
  refine ⟨fun d => ?_, fun d e hhigh => ?_⟩
  · rw [checksumOk_iff, ← BitVec.toNat_inj, BitVec.toNat_add, BitVec.toNat_add, Nat.mod_add_mod]
  · have hbyte : ∀ i : Fin 8, i.val < 4 → byteAt d i = byteAt e i := fun i hi => by
      rw [byteAt_high d hi, byteAt_high e hi, hhigh]
    rw [checksumOk, hbyte 0 (by decide), hbyte 1 (by decide), hbyte 2 (by decide), hbyte 3 (by decide), checksumOk]

/-- Settles O54: d1 and d2 are the digits of D[55:40] in base 256. -/
theorem valueIsBigEndian : Obligations.ValueIsBigEndian := by
  refine fun d => ⟨toNat_valueOf d, ?_⟩
  have h1 : (byteAt d 1).toNat = d.toNat / 2 ^ 48 % 2 ^ 8 := toNat_byteAt d 1
  have h2 : (byteAt d 2).toNat = d.toNat / 2 ^ 40 % 2 ^ 8 := toNat_byteAt d 2
  rw [toNat_valueOf, h1, h2]
  omega

/-! ### Classification -/

theorem classify_of_terminator_bad {d : Frame} (h : terminatorOk d = false) : classify d = .invalid :=
  (classify_invalid_iff d).2 fun ⟨hterm, _⟩ => Bool.false_ne_true (h.symm.trans hterm)

theorem classify_of_checksum_bad {d : Frame} (h : checksumOk d = false) : classify d = .invalid :=
  (classify_invalid_iff d).2 fun ⟨_, hsum⟩ => Bool.false_ne_true (h.symm.trans hsum)

/-- Settles O55: either failed check gives INVALID, the type code tells a valid frame's class, and LTOK and LCOK are the
checks of LDF by definition. -/
theorem classByChecksAndType : Obligations.ClassByChecksAndType := by
  refine fun d => ⟨classify_of_terminator_bad, classify_of_checksum_bad, classify_of_valid d, fun s hldf => ?_⟩
  rw [← hldf]
  exact ⟨rfl, rfl⟩

theorem classify_dfWord_typeCo2 (v : Value) : classify (dfWord typeCo2 v) = .co2 := by
  rw [classify_dfWord, if_pos rfl]

theorem classify_dfWord_typeTemp (v : Value) : classify (dfWord typeTemp v) = .temp := by
  rw [classify_dfWord, if_neg (by decide), if_pos rfl]

/-- Settles O56: the checksum names its one byte d3; type 0x00 is neither named type; a nonzero d5 to d7 or an all-zero
frame fails the terminator check; and every value of a named type has its class, 0 and 0xFFFF among them. -/
theorem classificationCorners : Obligations.ClassificationCorners := by
  refine ⟨fun c => ?_, fun d hterm hsum hty => ?_, fun d _ hbad => ?_, classify_of_terminator_bad (by decide), by decide,
    by decide, classify_dfWord_typeCo2 0#16, classify_dfWord_typeCo2 0xFFFF#16, classify_dfWord_typeTemp 0#16,
    classify_dfWord_typeTemp 0xFFFF#16⟩
  · have hsum : (0x50#8 + 0xFF#8 + 0xFF#8 : Byte) = 0x4E#8 := by decide
    rw [checksumOk_iff, byteAt_append_head _ _ _ (by decide), byteAt_append_head _ _ _ (by decide),
      byteAt_append_head _ _ _ (by decide), byteAt_append_csum, ← hsum]
    exact eq_comm
  · have hco2 : typeOf d ≠ typeCo2 := hty.trans_ne (by decide)
    have htemp : typeOf d ≠ typeTemp := hty.trans_ne (by decide)
    exact (classify_unknown_iff d).2 ⟨hterm, hsum, hco2, htemp⟩
  · refine (classify_invalid_iff d).2 fun ⟨hterm, _⟩ => ?_
    obtain ⟨-, h5, h6, h7⟩ := (terminatorOk_iff d).1 hterm
    exact hbad.elim (· h5) (·.elim (· h6) (· h7))

/-! ### The source's decode and the temperature -/

theorem decodePair_of_co2 {d : Frame} (h : classify d = .co2) : decodePair d = (some ((valueOf d).setWidth 32), none) := by
  rw [decodePair, h]

theorem decodePair_of_temp {d : Frame} (h : classify d = .temp) : decodePair d = (none, some (celsius (valueOf d))) := by
  rw [decodePair, h]

theorem decodePair_of_discarded {d : Frame} (h : classify d = .invalid ∨ classify d = .unknown) :
    decodePair d = (none, none) := by
  obtain h | h := h <;> rw [decodePair, h]

/-- Settles O57: decode's answer class by class; the zero-extension keeps the value. -/
theorem sourceDecodePair : Obligations.SourceDecodePair :=
  fun _ => ⟨fun hco2 => ⟨_, decodePair_of_co2 hco2, BitVec.toNat_setWidth_of_le (by decide)⟩, decodePair_of_temp,
    decodePair_of_discarded⟩

/-- The third form of T(v), over the common denominator 1600 (R140). -/
theorem celsiusExact_eq_div (v : Value) : celsiusExact v = (100 * (v.toNat : ℚ) - 437040) / 1600 := by
  rw [celsiusExact]
  ring

/-- The clamp that defines `celsius` keeps it within the bound of T(v), whatever the free choice. -/
theorem abs_celsius_sub_le (v : Value) : |celsius v - celsiusExact v| ≤ celsiusBound := by
  have hbound : 0 ≤ celsiusBound := by norm_num [celsiusBound]
  have hlow : celsiusExact v - celsiusBound ≤ celsius v := le_max_left _ _
  have hhigh : celsius v ≤ celsiusExact v + celsiusBound := max_le (by linarith) (min_le_left _ _)
  exact abs_le.2 ⟨by linarith, by linarith⟩

/-- Settles O58: the clamp's bound is 2^-12. -/
theorem celsiusWithinBound : Obligations.CelsiusWithinBound := by
  intro v
  have hpow : (1 : ℚ) / 2 ^ 12 = celsiusBound := by norm_num [celsiusBound]
  rw [← celsiusExact_eq_div, hpow]
  exact abs_celsius_sub_le v

/-- T is negative up to 4370 and positive from 4371 on: its zero 4370.4 is no raw value (R140). -/
theorem celsiusExact_neg_iff (v : Value) : celsiusExact v < 0 ↔ v.toNat ≤ 4370 := by
  rw [celsiusExact]
  constructor
  · intro hneg
    by_contra hgt
    have hcast : (4371 : ℚ) ≤ v.toNat := by exact_mod_cast not_le.1 hgt
    linarith
  · intro hle
    have hcast : (v.toNat : ℚ) ≤ 4370 := by exact_mod_cast hle
    linarith

/-- Settles O59: the forms are one expression, the range is that of a 16-bit value, and R141's frame is the word of a TEMP
frame with value 4485. -/
theorem exactTemperature : Obligations.ExactTemperature := by
  refine ⟨fun v => ⟨?_, rfl, celsiusExact_eq_div v, ?_, ?_, celsiusExact_neg_iff v⟩, ?_, ?_⟩
  · rw [celsiusExact]
    ring
  · have hmin : (0 : ℚ) ≤ v.toNat := Nat.cast_nonneg _
    rw [celsiusExact]
    linarith
  · have hmax : (v.toNat : ℚ) ≤ 65535 := by exact_mod_cast Nat.le_of_lt_succ v.isLt
    rw [celsiusExact]
    linarith
  · norm_num [celsiusExact]
  · have hframe : 0x421185D80D000000#64 = dfWord typeTemp 4485#16 := by decide
    rw [hframe, decodePair_of_temp (classify_dfWord_typeTemp _), valueOf_dfWord]

end Sys2Proof.Proofs

namespace Sys2Proof.Proofs

open Sys2Proof.Machine Sys2Proof.Safety

/-! ### The configuration during an acquisition -/

/-- From `s` to `t` the configuration KEY, BYPASS, MAXREQ is the same (R165). -/
structure ConfigHeld (s t : State) : Prop where
  key : t.key = s.key
  bypass : t.bypass = s.bypass
  maxreq : t.maxreq = s.maxreq

theorem ConfigHeld.trans {s t u : State} (h : ConfigHeld s t) (h' : ConfigHeld t u) : ConfigHeld s u :=
  ⟨h'.key.trans h.key, h'.bypass.trans h.bypass, h'.maxreq.trans h.maxreq⟩

/-- While RUNNING no instruction writes the configuration: its three writers are refused there (R161 to R163). -/
theorem exec_running_configHeld {i : Instr} {s t : State} (hrun : s.state = .running) (hexec : exec i s = .next t) :
    ConfigHeld s t := by
  obtain ⟨-, rfl⟩ | ⟨-, heffect⟩ := exec_cases i s t hexec
  · exact ⟨rfl, rfl, rfl⟩
  · obtain ⟨_, -, rfl⟩ | ⟨_, -, hne, -⟩ | ⟨_, -, hne, -⟩ | ⟨_, -, hne, -⟩ | ⟨_, -, hne, -⟩ | ⟨_, -, -, rfl⟩ |
      ⟨-, c, d, rfl⟩ := heffect
    · exact ⟨rfl, rfl, rfl⟩
    · exact absurd hrun hne
    · exact absurd hrun hne
    · exact absurd hrun hne
    · exact absurd hrun hne
    · exact ⟨rfl, rfl, rfl⟩
    · exact ⟨receive_key c d s, receive_bypass c d s, receive_maxreq c d s⟩

/-! ### The host's driver (R202) -/

/-- The commands of the driver, FRAME and XERR, are not refused while RUNNING (R214). -/
theorem refused_commandFor_of_running (r : TransportRead) {s : State} (hrun : s.state = .running) :
    refused (decode (.command (commandFor r))) s = false := by
  cases r with
  | report raw => simp [commandFor, decode, refused, refusedIn]
  | failed => simp [commandFor, decode, refused, refusedIn, hrun]

/-- Outside RUNNING the driver's START is accepted, so the reads are driven from the state it leaves (R180, R193). -/
theorem runAcquisition_of_ne (reads : List TransportRead) {s : State} (hrun : s.state ≠ .running) :
    runAcquisition reads s = drive reads (beginAcquisition s) := by
  have hstart : issue (cmdWord 0x4#4 0#64) s = .next (beginAcquisition s) := by
    rw [issue, step_presentCommand, decode, decodeCommand_start]
    exact unlessRunning_of_ne _ _ _ hrun
  rw [runAcquisition, hstart]

/-- A predicate that the command of each read keeps while RUNNING holds at the end of the drive. -/
theorem drive_keeps {P : State → Prop}
    (hkeep : ∀ r s t, s.state = .running → P s → exec (decode (.command (commandFor r))) s = .next t → P t)
    {reads : List TransportRead} {s t : State} (h : P s) (hdrive : drive reads s = .next t) : P t := by
  induction reads generalizing s with
  | nil =>
    cases hdrive
    exact h
  | cons r rest ih =>
    rw [drive] at hdrive
    split at hdrive
    · next hrun =>
      split at hdrive
      · next u hissue =>
        rw [issue, step_presentCommand] at hissue
        exact ih (hkeep r s u hrun h hissue) hdrive
      · cases hdrive
      · cases hdrive
    · cases hdrive
      exact h

/-- Settles O20: while RUNNING no instruction writes the configuration, and the driver's commands are accepted: START because
it finds the CRE outside RUNNING, the others because they are issued only while RUNNING. -/
theorem configHeldForAcquisition : Obligations.ConfigHeldForAcquisition := by
  refine ⟨fun i s t hrun hexec => ?_, fun reads s t hrun hacq => ?_⟩
  · obtain ⟨hkey, hbypass, hmaxreq⟩ := exec_running_configHeld hrun hexec
    exact ⟨hkey, hbypass, hmaxreq⟩
  · rw [runAcquisition_of_ne reads hrun] at hacq
    have hbegun : ConfigHeld s (beginAcquisition s) ∧ (beginAcquisition s).illcmd = s.illcmd := ⟨⟨rfl, rfl, rfl⟩, rfl⟩
    obtain ⟨⟨hkey, hbypass, hmaxreq⟩, hillcmd⟩ : ConfigHeld s t ∧ t.illcmd = s.illcmd := by
      refine drive_keeps (P := fun u => ConfigHeld s u ∧ u.illcmd = s.illcmd) ?_ hbegun hacq
      intro r u v hrunu ⟨hconfig, hillcmd⟩ hexec
      refine ⟨hconfig.trans (exec_running_configHeld hrunu hexec), ?_⟩
      rw [exec_illcmd hexec, refused_commandFor_of_running r hrunu, Bool.or_false, hillcmd]
    exact ⟨hkey, hbypass, hmaxreq, hillcmd.trans⟩

/-! ### The configuration commands and the reserved codes -/

/-- Settles O14: CMD 0x0 decodes to NOP, which answers the state itself. -/
theorem nopChangesNothing : Obligations.NopChangesNothing :=
  fun data _ => ⟨decodeCommand_nop data, rfl⟩

/-- FRAME outside RUNNING writes LDF and nothing else (R182, R188). -/
theorem exec_frame_of_ne (data : Data) {s : State} (hrun : s.state ≠ .running) :
    exec (.frame data) s = .next { s with ldf := decipher data s.key s.bypass } :=
  congrArg Host.Outcome.next (receive_of_ne _ _ s hrun)

/-- With KEY = 0 the XOR step is the identity (R161). -/
theorem keystream_zero (r : Frame) : keystream r 0#64 = ror64 (permute r) 3 := by
  rw [keystream, BitVec.xor_zero]

/-- Settles O15: SETKEY is its operand's write, guarded by RUNNING; the example is a FRAME in IDLE. -/
theorem setkeyLoadsKey : Obligations.SetkeyLoadsKey := by
  refine ⟨fun data s => ⟨decodeCommand_setkey data, unlessRunning_of_ne _ _ _, unlessRunning_running _ _ _⟩,
    fun r => ⟨BitVec.xor_zero, keystream_zero r⟩, ?_⟩
  have hdecipher : decipher 0xD4A4A2B63D9A9C50#64 0#64 false = 0x500064B40D000000#64 := by decide
  rw [exec_frame_of_ne _ (by decide)]
  exact congrArg (fun d => Host.Outcome.next { State.reset with key := 0#64, ldf := d }) hdecipher

/-- Settles O16: SETBYP is the guarded write of DATA[0], which is 0 in DATA = 2; the example is a FRAME in IDLE with the
cipher bypassed. -/
theorem setbypLoadsBypass : Obligations.SetbypLoadsBypass :=
  ⟨fun data _ => ⟨decodeCommand_setbyp data, unlessRunning_of_ne _ _ _, unlessRunning_running _ _ _⟩,
    fun _ => unlessRunning_of_ne _ _ _, exec_frame_of_ne _ (by decide), by decide⟩

/-- The operand of SETMAX as a number: DATA modulo 2^32 (R72). -/
theorem maxOperand_eq_ofNat (data : Data) : maxOperand data = BitVec.ofNat 32 (data.toNat % 2 ^ 32) := by
  apply BitVec.eq_of_toNat_eq
  rw [maxOperand, BitVec.extractLsb'_toNat, Nat.shiftRight_zero, BitVec.toNat_ofNat, Nat.mod_mod]

/-- Settles O17: SETMAX is the guarded write of DATA modulo 2^32. -/
theorem setmaxLoadsBudget : Obligations.SetmaxLoadsBudget := by
  intro data s
  rw [← maxOperand_eq_ofNat]
  exact ⟨decodeCommand_setmax data, unlessRunning_of_ne _ _ _, unlessRunning_running _ _ _⟩

/-- The codes 0x8 to 0xF, as the sum and as the bits of CMD (R71). -/
theorem highCode_eq_append (low : BitVec 3) : 8#4 + low.setWidth 4 = 1#1 ++ low := by
  revert low; decide

/-- Settles O18: both reserved rows answer the raise of IllegalCommand, whatever STATE is. -/
theorem reservedCodesRaise : Obligations.ReservedCodesRaise := by
  refine ⟨fun data s => ⟨decodeCommand_reserved7 data, rfl⟩, fun low data s => ⟨?_, rfl⟩⟩
  rw [highCode_eq_append]
  exact decodeCommand_reserved8F low data

end Sys2Proof.Proofs

namespace Sys2Proof.Proofs

open Sys2Proof.Machine Sys2Proof.Safety

/-! ### START, FRAME and XERR (R180 to R190) -/

/-- FRAME receives its deciphered report (R181). -/
theorem exec_frame (data : Data) (s : State) :
    exec (.frame data) s =
      .next (receive (classify (decipher data s.key s.bypass)) (decipher data s.key s.bypass) s) :=
  rfl

/-- Settles O21: START is the clearing write, guarded by RUNNING. -/
theorem startBeginsAcquisition : Obligations.StartBeginsAcquisition :=
  fun data _ => ⟨decodeCommand_start data, unlessRunning_of_ne _ _ _, unlessRunning_running _ _ _⟩

/-- Settles O22: whatever STATE is, `receive` writes LDF. -/
theorem frameOutsideRunning : Obligations.FrameOutsideRunning :=
  ⟨fun data _ => exec_frame_of_ne data, fun data s => ⟨_, exec_frame data s, receive_ldf _ _ s⟩⟩

/-- Settles O31: XERR is the aborting write, performed only while RUNNING; RV is 0 in FAILED. -/
theorem xerrAbortsAcquisition : Obligations.XerrAbortsAcquisition :=
  fun data _ => ⟨decodeCommand_xerr data, fun hrun => ⟨whileRunning_running _ _ _ hrun, rfl⟩, whileRunning_of_ne _ _ _⟩

/-- Settles O23: outside RUNNING FRAME writes LDF, while RUNNING `receive` writes the fields named; the example deciphers to
the CO2 frame of 100 ppm. -/
theorem frameWhileRunning : Obligations.FrameWhileRunning := by
  refine ⟨fun data s => ⟨decodeCommand_frame data, exec_frame_of_ne data, fun hrun => ?_⟩, ?_⟩
  · exact congrArg Host.Outcome.next (receive_running_eq _ _ s hrun)
  · exact congrArg Host.Outcome.next (by decide)

/-- Settles O26: the row of the deciphered frame receives that frame with its class, and so does FRAME. -/
theorem frameRunsItsClassRow : Obligations.FrameRunsItsClassRow := by
  intro data s
  rw [decode, exec_decodeFrame, exec_frame]

/-- A CO2 frame received while RUNNING fills the CO2 slot alone, and the stop test sees it filled (R184). -/
theorem receive_running_co2 (d : Frame) {s : State} (hrun : s.state = .running) :
    receive .co2 d s = { s with
      ldf := d
      co2v := true
      co2val := valueOf d
      reqcnt := s.reqcnt + 1#32
      state := stateAfterFrame (s.reqcnt + 1#32) s.maxreq true s.tmpv
      err := errAfterFrame s.err (s.reqcnt + 1#32) s.maxreq true s.tmpv } := by
  simp [receive_running_eq .co2 d s hrun]

/-- A TEMP frame received while RUNNING fills the temperature slot alone, and the stop test sees it filled (R184). -/
theorem receive_running_temp (d : Frame) {s : State} (hrun : s.state = .running) :
    receive .temp d s = { s with
      ldf := d
      tmpv := true
      tmpraw := valueOf d
      reqcnt := s.reqcnt + 1#32
      state := stateAfterFrame (s.reqcnt + 1#32) s.maxreq s.co2v true
      err := errAfterFrame s.err (s.reqcnt + 1#32) s.maxreq s.co2v true } := by
  simp [receive_running_eq .temp d s hrun]

/-- Settles O27: the row receives the word of type 0x50 and this value. -/
theorem co2RowAccumulates : Obligations.Co2RowAccumulates := by
  refine fun v s => ⟨fun hrun => ?_, fun hrun => ?_⟩
  · exact congrArg _ (receive_of_ne .co2 (dfWord typeCo2 v) s hrun)
  · have hreceive := receive_running_co2 (dfWord typeCo2 v) hrun
    rw [valueOf_dfWord] at hreceive
    exact congrArg _ hreceive

/-- Settles O28: the row receives the word of type 0x42 and this value. -/
theorem tempRowAccumulates : Obligations.TempRowAccumulates := by
  refine fun v s => ⟨fun hrun => ?_, fun hrun => ?_⟩
  · exact congrArg _ (receive_of_ne .temp (dfWord typeTemp v) s hrun)
  · have hreceive := receive_running_temp (dfWord typeTemp v) hrun
    rw [valueOf_dfWord] at hreceive
    exact congrArg _ hreceive

/-! ### Slots -/

/-- A frame empties no filled slot (R184). -/
theorem receive_keeps_filled (c : FrameClass) (d : Frame) (s : State) :
    (s.co2v = true → (receive c d s).co2v = true) ∧ (s.tmpv = true → (receive c d s).tmpv = true) :=
  ⟨fun hfull => Bool.of_not_eq_false fun hempty =>
      Bool.false_ne_true ((receive_co2_empty hempty).1.symm.trans hfull),
    fun hfull => Bool.of_not_eq_false fun hempty =>
      Bool.false_ne_true ((receive_temp_empty hempty).1.symm.trans hfull)⟩

/-- START aside, no instruction empties a filled slot: only a frame writes one, and it empties none. -/
theorem exec_keeps_filled {i : Instr} {s t : State} (hexec : exec i s = .next t) (hstart : codeOf i ≠ some 0x4#4) :
    (s.co2v = true → t.co2v = true) ∧ (s.tmpv = true → t.tmpv = true) := by
  obtain ⟨-, rfl⟩ | ⟨-, heffect⟩ := exec_cases i s t hexec
  · exact ⟨id, id⟩
  · obtain ⟨_, -, rfl⟩ | ⟨_, -, -, rfl⟩ | ⟨_, -, -, rfl⟩ | ⟨_, -, -, rfl⟩ | ⟨_, rfl, -, -⟩ | ⟨_, -, -, rfl⟩ |
      ⟨-, c, d, rfl⟩ := heffect
    · exact ⟨id, id⟩
    · exact ⟨id, id⟩
    · exact ⟨id, id⟩
    · exact ⟨id, id⟩
    · exact absurd (codeOf_start _) hstart
    · exact ⟨id, id⟩
    · exact receive_keeps_filled c d s

/-- Settles O24: what a frame of each class writes is known slot by slot, and no instruction but START empties one. -/
theorem slotUpdateByClass : Obligations.SlotUpdateByClass := by
  refine ⟨fun data s hrun => ⟨_, exec_frame data s, fun hc => ?_, fun hc => ?_, fun hc => ?_⟩,
    fun _ _ _ => exec_keeps_filled⟩
  · rw [hc, receive_running_co2 _ hrun]
    exact ⟨rfl, rfl, rfl, rfl⟩
  · rw [hc, receive_running_temp _ hrun]
    exact ⟨rfl, rfl, rfl, rfl⟩
  · obtain ⟨hco2, htemp⟩ : classify (decipher data s.key s.bypass) ≠ .co2 ∧
        classify (decipher data s.key s.bypass) ≠ .temp := by
      obtain hc | hc := hc <;> simp [hc]
    obtain ⟨hco2v, hco2val, htmpv, htmpraw⟩ := receive_keeps_slots hco2 htemp _ s
    exact ⟨hco2val, hco2v, htmpraw, htmpv⟩

/-! ### The first frame, and the result -/

/-- Settles O30: from the empty slots and count that START leaves, the first frame fills at most its own slot; it is one
request, so a budget of 0 is spent and a slot is missing. -/
theorem firstFrameAlwaysCounts : Obligations.FirstFrameAlwaysCounts := by
  refine fun d0 data s hrun => ⟨_, _, unlessRunning_of_ne _ _ _ hrun, rfl, exec_frame data _, ?_⟩
  intro d
  have hbegun : (beginAcquisition s).state = .running := rfl
  rw [beginAcquisition_key, beginAcquisition_bypass, receive_running_eq (classify d) d _ hbegun]
  refine ⟨rfl, rfl, by simp, fun hc => if_pos hc, by simp, fun hc => if_pos hc, fun hzero => ?_⟩
  cases classify d <;> simp [hzero, stateAfterFrame, errAfterFrame]

/-- Settles O43: the result is read off STATE; outside RUNNING a frame writes LDF alone, and no other instruction but START
writes a register that the result reads. -/
theorem resultStaysReadable : Obligations.ResultStaysReadable := by
  refine ⟨fun s hst => ?_, fun s hst => ?_, fun i s t hrun hstart hexec => ?_⟩
  · simp [result, outputs, hst]
  · simp [result, outputs, hst]
  · obtain ⟨-, rfl⟩ | ⟨-, heffect⟩ := exec_cases i s t hexec
    · rfl
    · obtain ⟨_, -, rfl⟩ | ⟨_, -, -, rfl⟩ | ⟨_, -, -, rfl⟩ | ⟨_, -, -, rfl⟩ | ⟨_, rfl, -, -⟩ | ⟨_, -, hr, -⟩ |
        ⟨-, c, d, rfl⟩ := heffect
      · rfl
      · rfl
      · rfl
      · rfl
      · exact absurd (codeOf_start _) hstart
      · exact absurd hr hrun
      · rw [receive_of_ne c d s hrun]
        rfl

end Sys2Proof.Proofs

namespace Sys2Proof.Proofs

open Sys2Proof.Machine Sys2Proof.Safety

/-! ### What the command of one read does, and the driver read by read (R202) -/

/-- The state after the command of one read: FRAME with the report, or XERR, while RUNNING (R202). -/
def afterRead (r : TransportRead) (s : State) : State :=
  match r with
  | .report raw => receive (classify (decipher raw s.key s.bypass)) (decipher raw s.key s.bypass) s
  | .failed => abortAcquisition s

theorem exec_commandFor (r : TransportRead) {s : State} (hrun : s.state = .running) :
    exec (decode (.command (commandFor r))) s = .next (afterRead r s) := by
  cases r with
  | report raw =>
    rw [commandFor, decode, decodeCommand_frame]
    rfl
  | failed =>
    rw [commandFor, decode, decodeCommand_xerr]
    exact whileRunning_running _ _ _ hrun

theorem drive_of_ne (reads : List TransportRead) {s : State} (hrun : s.state ≠ .running) :
    drive reads s = .next s := by
  cases reads with
  | nil => rfl
  | cons r rest => rw [drive, if_neg hrun]

theorem drive_cons (r : TransportRead) (rest : List TransportRead) {s : State} (hrun : s.state = .running) :
    drive (r :: rest) s = drive rest (afterRead r s) := by
  rw [drive, if_pos hrun, issue, step_presentCommand, exec_commandFor r hrun]

/-- The driver meets no fault and no refusal (R210). -/
theorem drive_answers (reads : List TransportRead) (s : State) : ∃ t, drive reads s = .next t := by
  induction reads generalizing s with
  | nil => exact ⟨s, rfl⟩
  | cons r rest ih =>
    by_cases hrun : s.state = .running
    · rw [drive_cons r rest hrun]
      exact ih _
    · exact ⟨s, drive_of_ne _ hrun⟩

/-- The stop test continues exactly while requests remain and a slot is empty (R183). -/
theorem stateAfterFrame_eq_running_iff (n m : BitVec 32) (c t : Bool) :
    stateAfterFrame n m c t = .running ↔ n.toNat < m.toNat ∧ ¬(c = true ∧ t = true) := by
  unfold stateAfterFrame
  split
  · next hgo => exact iff_of_true rfl hgo
  · next hstop => split <;> exact iff_of_false (by decide) hstop

/-- After a frame the acquisition still runs exactly while the new count is below MAXREQ and a slot is empty. -/
theorem receive_still_running_iff (c : FrameClass) (d : Frame) {s : State} (hrun : s.state = .running) :
    (receive c d s).state = .running ↔
      (receive c d s).reqcnt.toNat < s.maxreq.toNat ∧ ¬((receive c d s).co2v = true ∧ (receive c d s).tmpv = true) := by
  rw [receive_running_eq c d s hrun]
  exact stateAfterFrame_eq_running_iff ..

/-- Under the invariants a frame adds 1 to the count without wrapping, and stays within max(MAXREQ, 1) (R185, R28). -/
theorem receive_counts (c : FrameClass) (d : Frame) {s : State} (hinv : Inv s) (hrun : s.state = .running) :
    (receive c d s).reqcnt.toNat = s.reqcnt.toNat + 1 ∧ s.reqcnt.toNat + 1 ≤ max s.maxreq.toNat 1 := by
  obtain ⟨-, -, hbudget⟩ := hinv.running hrun
  rw [receive_running_reqcnt c d hrun]
  exact toNat_succ_of_budget hbudget

theorem afterRead_keeps_inv (r : TransportRead) {s : State} (hinv : Inv s) (hrun : s.state = .running) :
    Inv (afterRead r s) :=
  exec_keeps_inv hinv (exec_commandFor r hrun)

/-- While RUNNING the count is below the bound of R192. -/
theorem reqcnt_lt_of_running {s : State} (hinv : Inv s) (hrun : s.state = .running) :
    s.reqcnt.toNat < max s.maxreq.toNat 1 := by
  obtain ⟨-, -, hzero | hlt⟩ := hinv.running hrun
  · simp [hzero]
  · omega

/-! ### An acquisition is bounded (R192) -/

/-- The command of a read keeps the count within max(MAXREQ, 1), and MAXREQ itself. -/
theorem afterRead_reqcnt_le (r : TransportRead) {s : State} (hinv : Inv s) (hrun : s.state = .running) :
    (afterRead r s).reqcnt.toNat ≤ max s.maxreq.toNat 1 ∧ (afterRead r s).maxreq = s.maxreq := by
  cases r with
  | report raw =>
    obtain ⟨hcount, hle⟩ := receive_counts (classify (decipher raw s.key s.bypass)) _ hinv hrun
    exact ⟨hcount.trans_le hle, receive_maxreq ..⟩
  | failed => exact ⟨(reqcnt_lt_of_running hinv hrun).le, rfl⟩

/-- If the CRE still runs after the command of a read, the read was counted: XERR would have ended the acquisition. -/
theorem afterRead_counts (r : TransportRead) {s : State} (hinv : Inv s) (hrun : s.state = .running)
    (hstill : (afterRead r s).state = .running) : (afterRead r s).reqcnt.toNat = s.reqcnt.toNat + 1 := by
  cases r with
  | report raw => exact (receive_counts _ _ hinv hrun).1
  | failed => cases hstill

/-- A drive that ends while RUNNING has counted every read. -/
theorem drive_counts_all {reads : List TransportRead} {s t : State} (hinv : Inv s) (hdrive : drive reads s = .next t)
    (hstill : t.state = .running) : t.reqcnt.toNat = s.reqcnt.toNat + reads.length := by
  induction reads generalizing s with
  | nil =>
    cases hdrive
    rfl
  | cons r rest ih =>
    by_cases hrun : s.state = .running
    · rw [drive_cons r rest hrun] at hdrive
      have hrest := ih (afterRead_keeps_inv r hinv hrun) hdrive
      have hnext : (afterRead r s).state = .running := by
        by_contra hne
        cases (drive_of_ne rest hne).symm.trans hdrive
        exact hne hstill
      rw [hrest, afterRead_counts r hinv hrun hnext, List.length_cons]
      omega
    · cases (drive_of_ne _ hrun).symm.trans hdrive
      exact absurd hstill hrun

/-- The invariants, MAXREQ and the bound on the count hold at the end of a drive. -/
theorem drive_bounded {reads : List TransportRead} {s t : State} (hinv : Inv s)
    (hle : s.reqcnt.toNat ≤ max s.maxreq.toNat 1) (hdrive : drive reads s = .next t) :
    Inv t ∧ t.maxreq = s.maxreq ∧ t.reqcnt.toNat ≤ max s.maxreq.toNat 1 := by
  refine drive_keeps (P := fun u => Inv u ∧ u.maxreq = s.maxreq ∧ u.reqcnt.toNat ≤ max s.maxreq.toNat 1)
    (fun r u v hrun ⟨hinvu, hmax, _⟩ hexec => ?_) ⟨hinv, rfl, hle⟩ hdrive
  cases (exec_commandFor r hrun).symm.trans hexec
  obtain ⟨hcount, hkept⟩ := afterRead_reqcnt_le r hinvu hrun
  rw [hmax] at hcount hkept
  exact ⟨afterRead_keeps_inv r hinvu hrun, hkept, hcount⟩

/-- The read succeeds with a report that deciphers to an INVALID frame under this key and bypass. -/
def InvalidRead (key : Frame) (bypass : Bool) (r : TransportRead) : Prop :=
  ∃ raw, r = .report raw ∧ classify (decipher raw key bypass) = .invalid

theorem afterRead_invalid {r : TransportRead} {s : State} (h : InvalidRead s.key s.bypass r) :
    ∃ d, afterRead r s = receive .invalid d s := by
  obtain ⟨raw, rfl, hclass⟩ := h
  exact ⟨decipher raw s.key s.bypass, congrArg (receive · _ s) hclass⟩

/-- Reads of invalid frames alone run the budget out: the CO2 slot stays empty, so the end is MISSING_CO2. -/
theorem drive_invalid_reads {reads : List TransportRead} {s t : State} (hinv : Inv s) (hrun : s.state = .running)
    (hempty : s.co2v = false) (hbad : ∀ r ∈ reads, InvalidRead s.key s.bypass r)
    (hlen : max s.maxreq.toNat 1 ≤ s.reqcnt.toNat + reads.length) (hdrive : drive reads s = .next t) :
    t.reqcnt.toNat = max s.maxreq.toNat 1 ∧ t.state = .failed ∧ t.err = .missingCo2 := by
  induction reads generalizing s with
  | nil => exact absurd (reqcnt_lt_of_running hinv hrun) hlen.not_gt
  | cons r rest ih =>
    rw [drive_cons r rest hrun] at hdrive
    obtain ⟨d, hread⟩ := afterRead_invalid (hbad r List.mem_cons_self)
    have hinv' := afterRead_keeps_inv r hinv hrun
    rw [hread] at hdrive hinv'
    obtain ⟨hcount, hle⟩ := receive_counts .invalid d hinv hrun
    have hempty' : (receive .invalid d s).co2v = false :=
      (receive_keeps_slots (by decide) (by decide) d s).1.trans hempty
    by_cases hstill : (receive .invalid d s).state = .running
    · rw [← receive_maxreq .invalid d s] at hlen ⊢
      refine ih hinv' hstill hempty' (fun r' hr' => ?_) ?_ hdrive
      · rw [receive_key, receive_bypass]
        exact hbad r' (List.mem_cons_of_mem r hr')
      · rw [hcount]
        rw [List.length_cons] at hlen
        omega
    · cases (drive_of_ne rest hstill).symm.trans hdrive
      have hspent : s.maxreq.toNat ≤ s.reqcnt.toNat + 1 := by
        by_contra hmore
        exact hstill ((receive_still_running_iff .invalid d hrun).2 ⟨by omega, by simp [hempty']⟩)
      obtain ⟨hst, -⟩ | ⟨-, -, hc, -⟩ | ⟨hst, herr, -⟩ | ⟨-, -, hc, -⟩ := receive_running_cases hrun rfl
      · exact absurd hst hstill
      · exact absurd (hempty'.symm.trans hc) Bool.false_ne_true
      · exact ⟨by omega, hst, herr⟩
      · exact absurd (hempty'.symm.trans hc) Bool.false_ne_true

/-- Settles O44: START gives an empty count, each read that leaves the CRE RUNNING is counted, and the RUNNING invariant keeps
the count below the bound. -/
theorem acquisitionIsBounded : Obligations.AcquisitionIsBounded := by
  intro reads s hrun
  rw [runAcquisition_of_ne reads hrun]
  have hinv : Inv (beginAcquisition s) := inv_beginAcquisition s
  obtain ⟨t, hdrive⟩ := drive_answers reads (beginAcquisition s)
  obtain ⟨hinvt, hmax, hle⟩ := drive_bounded hinv (by simp) hdrive
  rw [beginAcquisition_maxreq] at hmax hle
  have hfrom (n : Nat) : (beginAcquisition s).reqcnt.toNat + n = n := by simp
  refine ⟨t, hdrive, hle, fun hlen hstill => ?_, fun hlen hbad => ?_⟩
  · have hlt := reqcnt_lt_of_running hinvt hstill
    rw [drive_counts_all hinv hdrive hstill, hfrom, hmax] at hlt
    exact absurd hlt hlen.not_gt
  · exact drive_invalid_reads (s := beginAcquisition s) hinv rfl rfl hbad (by rwa [hfrom]) hdrive

/-! ### The driver and the source's loop (R193) -/

/-- The source's CO2 slot that the registers CO2V and CO2VAL hold (R29, R138). -/
def co2Slot (s : State) : Option (BitVec 32) :=
  if s.co2v then some (s.co2val.setWidth 32) else none

/-- The source's temperature slot that the registers TMPV and TMPRAW hold (R30, R138). -/
noncomputable def tempSlot (s : State) : Option ℚ :=
  if s.tmpv then some (celsius s.tmpraw) else none

/-- The reads made: REQCNT, and the failed read that an XERR reports (R193). -/
def readsMade (s : State) : Nat :=
  s.reqcnt.toNat + if s.err = .xportRead then 1 else 0

theorem readsMade_of_ne {s : State} (h : s.err ≠ .xportRead) : readsMade s = s.reqcnt.toNat := by
  simp [readsMade, h]

theorem isSome_co2Slot (s : State) : (co2Slot s).isSome = s.co2v := by
  cases h : s.co2v <;> simp [co2Slot, h]

theorem isSome_tempSlot (s : State) : (tempSlot s).isSome = s.tmpv := by
  cases h : s.tmpv <;> simp [tempSlot, h]

/-- A received frame fills the slots as the source does with its decoded pair (R184). -/
theorem slots_receive (d : Frame) {s : State} (hrun : s.state = .running) :
    co2Slot (receive (classify d) d s) = (decodePair d).1.or (co2Slot s) ∧
      tempSlot (receive (classify d) d s) = (decodePair d).2.or (tempSlot s) := by
  rw [receive_running_eq _ d s hrun]
  cases hc : classify d with
  | co2 => simp [co2Slot, tempSlot, decodePair_of_co2 hc]
  | temp => simp [co2Slot, tempSlot, decodePair_of_temp hc]
  | unknown => simp [co2Slot, tempSlot, decodePair_of_discarded (.inr hc)]
  | invalid => simp [co2Slot, tempSlot, decodePair_of_discarded (.inl hc)]

/-- A frame that ends the acquisition leaves the source's result of its slots (R186), and not the error of an XERR. -/
theorem receive_finished {c : FrameClass} {d : Frame} {s : State} (hrun : s.state = .running)
    (hstop : (receive c d s).state ≠ .running) :
    acquireResult (co2Slot (receive c d s)) (tempSlot (receive c d s)) = result (receive c d s) ∧
      (receive c d s).err ≠ .xportRead := by
  obtain ⟨hst, -⟩ | ⟨hst, herr, hc, ht⟩ | ⟨hst, herr, hc⟩ | ⟨hst, herr, hc, ht⟩ :=
    receive_running_cases hrun (rfl : receive c d s = _)
  · exact absurd hst hstop
  · simp [acquireResult, co2Slot, tempSlot, result, outputs, hst, herr, hc, ht]
  · simp [acquireResult, co2Slot, result, hst, herr, hc]
  · simp [acquireResult, co2Slot, tempSlot, result, hst, herr, hc, ht]

/-- The source's loop entered with the configuration, the slots and the count of `s`. -/
noncomputable def acquireFrom (reads : List TransportRead) (s : State) : AcqResult × Nat :=
  acquireLoop s.maxreq s.key s.bypass reads (co2Slot s) (tempSlot s) s.reqcnt.toNat

/-- One turn of the loop with a report is the machine's FRAME: the loop returns where the stop test finishes. -/
theorem acquireFrom_report (raw : Frame) (rest : List TransportRead) {s : State} (hinv : Inv s)
    (hrun : s.state = .running) :
    acquireFrom (.report raw :: rest) s =
      if (afterRead (.report raw) s).state = .running then acquireFrom rest (afterRead (.report raw) s)
      else (result (afterRead (.report raw) s), readsMade (afterRead (.report raw) s)) := by
  rw [acquireFrom, acquireLoop, afterRead]
  generalize decipher raw s.key s.bypass = d
  obtain ⟨hco2, htemp⟩ := slots_receive d hrun
  obtain ⟨hcount, -⟩ := receive_counts (classify d) d hinv hrun
  have hgo := receive_still_running_iff (classify d) d hrun
  rw [← hco2, ← htemp, ← hcount, isSome_co2Slot, isSome_tempSlot]
  by_cases hstill : (receive (classify d) d s).state = .running
  · obtain ⟨hlt, hslots⟩ := hgo.1 hstill
    rw [if_pos hstill, if_neg (not_or.2 ⟨hlt.not_ge, hslots⟩), acquireFrom, receive_maxreq, receive_key, receive_bypass]
  · have hstop := mt hgo.2 hstill
    rw [not_and_or, not_lt, not_not] at hstop
    obtain ⟨hresult, herr⟩ := receive_finished hrun hstill
    rw [if_neg hstill, if_pos hstop, hresult, readsMade_of_ne herr]

/-- The simulation: from a RUNNING state that meets the invariants, driver and loop give the same result and read count. -/
theorem acquireFrom_eq_of_drive {reads : List TransportRead} {s t : State} (hinv : Inv s) (hrun : s.state = .running)
    (hdrive : drive reads s = .next t) : acquireFrom reads s = (result t, readsMade t) := by
  induction reads generalizing s with
  | nil =>
    cases hdrive
    obtain ⟨herr, -⟩ := hinv.running hrun
    have hpending : result t = .pending := by rw [result, hrun]
    rw [acquireFrom, acquireLoop, hpending, readsMade_of_ne (by simp [herr])]
  | cons r rest ih =>
    rw [drive_cons r rest hrun] at hdrive
    cases r with
    | report raw =>
      rw [acquireFrom_report raw rest hinv hrun]
      split
      · next hstill => exact ih (afterRead_keeps_inv _ hinv hrun) hstill hdrive
      · next hstop =>
        cases (drive_of_ne rest hstop).symm.trans hdrive
        rfl
    | failed =>
      have haborted : (abortAcquisition s).state ≠ .running := by simp
      cases (drive_of_ne rest haborted).symm.trans hdrive
      rfl

/-- Settles O45: START leaves both slots empty and no read made, where the source's loop begins; the simulation does the
rest. -/
theorem driverMatchesSourceLoop : Obligations.DriverMatchesSourceLoop := by
  intro reads s hrun
  obtain ⟨t, hdrive⟩ := drive_answers reads (beginAcquisition s)
  refine ⟨t, (runAcquisition_of_ne reads hrun).trans hdrive, ?_⟩
  exact acquireFrom_eq_of_drive (inv_beginAcquisition s) rfl hdrive

end Sys2Proof.Proofs

namespace Sys2Proof.Proofs

open Sys2Proof.Machine Sys2Proof.Safety

/-! ### No outcome stops the CRE (R210) -/

theorem unlessRunning_answers (c : CmdCode) (s t : State) : ∃ u, unlessRunning c s t = .next u := by
  by_cases hrun : s.state = .running
  · exact ⟨_, unlessRunning_running c s t hrun⟩
  · exact ⟨_, unlessRunning_of_ne c s t hrun⟩

theorem whileRunning_answers (c : CmdCode) (s t : State) : ∃ u, whileRunning c s t = .next u := by
  by_cases hrun : s.state = .running
  · exact ⟨_, whileRunning_running c s t hrun⟩
  · exact ⟨_, whileRunning_of_ne c s t hrun⟩

/-- Every instruction answers a next state: a guarded command answers its effect or its refusal, and the rest are not
guarded. -/
theorem exec_answers (i : Instr) (s : State) : ∃ t, exec i s = .next t := by
  cases i with
  | setkey | setbyp | setmax | start => exact unlessRunning_answers ..
  | xerr => exact whileRunning_answers ..
  | nop | frame | reserved7 | reserved8F | frameCo2 | frameTemp | frameUnknown | frameInvalid => exact ⟨_, rfl⟩

theorem step_answers (s : State) : ∃ t, step s = .next t := by
  unfold step
  cases readInput s with
  | waiting => exact ⟨s, rfl⟩
  | command i rest => exact exec_answers i (withPort rest s)
  | reset rest => exact ⟨applyReset rest, rfl⟩

/-- A machine whose every step answers a next state runs for any number of steps. -/
theorem run_answers {M : Host.Core} (hstep : ∀ s, ∃ t, M.step s = .next t) (k : Nat) (s : M.State) :
    ∃ t, M.run k s = .next t := by
  induction k generalizing s with
  | zero => exact ⟨s, rfl⟩
  | succ k ih =>
    obtain ⟨t, ht⟩ := hstep s
    rw [Host.Core.run, ht]
    exact ih t

/-- Settles O13: the induction over the steps, each of which answers a next state. -/
theorem nothingStopsTheMachine : Obligations.NothingStopsTheMachine :=
  run_answers (M := core) step_answers

/-! ### The table of refusals (R214) -/

/-- A reserved code is refused in every STATE (R76, R164). -/
theorem refusedIn_reserved {c : CmdCode} (h : 7 ≤ c.toNat) (q : AcqState) : refusedIn c q = true := by
  obtain rfl | hc := cmdCode_reserved h
  · rfl
  · obtain ⟨h0, h1, h2, h3, h4, h5, h6, -⟩ := highCode_ne (c.extractLsb' 0 3)
    rw [← hc] at h0 h1 h2 h3 h4 h5 h6
    simp [refusedIn, h0, h1, h2, h3, h4, h5, h6]

/-- The instruction of a command word carries the word's code. -/
theorem codeOf_decode_command (w : CmdWord) : codeOf (decode (.command w)) = some (cmdCode w) := by
  rw [codeOf, (encodeOfDecode (.command w)).2]

theorem refused_decode_command (w : CmdWord) (s : State) :
    refused (decode (.command w)) s = refusedIn (cmdCode w) s.state := by
  rw [refused, codeOf_decode_command]

/-- A refused instruction sets ILLCMD and does nothing else (R214). -/
theorem exec_of_refused {i : Instr} {s : State} (h : refused i s = true) :
    exec i s = .next { s with illcmd := true } := by
  obtain ⟨t, hexec⟩ := exec_answers i s
  obtain ⟨-, rfl⟩ | ⟨haccepted, -⟩ := exec_cases i s t hexec
  · exact hexec
  · exact absurd (h.symm.trans haccepted) Bool.false_ne_true.symm

/-- An accepted instruction answers a next state and leaves ILLCMD as it was (R27). -/
theorem exec_of_accepted {i : Instr} {s : State} (h : refused i s = false) :
    ∃ t, exec i s = .next t ∧ t.illcmd = s.illcmd := by
  obtain ⟨t, hexec⟩ := exec_answers i s
  exact ⟨t, hexec, by rw [exec_illcmd hexec, h, Bool.or_false]⟩

/-- Settles O32: the entries of the seven commands are the table itself, and whether a command word is refused is the entry
of its code. -/
theorem refusalFollowsTable : Obligations.RefusalFollowsTable := by
  refine ⟨fun q => ⟨rfl, rfl, rfl, rfl, rfl, rfl, ?_, fun _ h => refusedIn_reserved h q⟩, fun w s => ?_⟩
  · exact decide_not.symm
  · rw [← refused_decode_command]
    exact ⟨exec_of_refused, exec_of_accepted⟩

end Sys2Proof.Proofs

namespace Sys2Proof.Proofs

open Sys2Proof.Machine Sys2Proof.Safety

/-! ### RESET (R240 to R242) -/

/-- RESET forgets the state it interrupts and keeps the inputs that follow it. -/
theorem step_reset (rest : List PortInput) (s : State) :
    step { s with port := .reset :: rest } = .next (applyReset rest) := rfl

/-- The derived outputs after RESET: LDF = 0 fails the terminator check, and its checksum is 0 + 0 + 0 = 0 (R240). -/
theorem outputs_applyReset (rest : List PortInput) :
    outputs (applyReset rest) =
      { ltok := false, lcok := true, lcls := .invalid, lval := 0#16, co2ppm := 0#32, rv := false } := by
  have hterm : terminatorOk 0#64 = false := by decide
  have hsum : checksumOk 0#64 = true := by decide
  simp [outputs, applyReset, withPort, State.reset, hterm, hsum, classify_of_terminator_bad hterm, valueOf]

/-- Settles O10: the registers are the fields of the state RESET gives, and the outputs follow from them. -/
theorem resetSetsRegisters : Obligations.ResetSetsRegisters := by
  intro rest s
  refine ⟨applyReset rest, step_reset rest s, rfl, rfl, rfl, rfl, rfl, rfl, rfl, rfl, rfl, rfl, rfl, rfl, ?_⟩
  simp [outputs_applyReset]

/-- Settles O11: RESET leads to the reset state with an empty port, which is IDLE, so its result is pending and the next step
waits. -/
theorem resetAbandonsAcquisition : Obligations.ResetAbandonsAcquisition := by
  intro s _
  exact ⟨State.reset, step_reset [] s, rfl, rfl, rfl, step_waiting State.reset rfl⟩

/-- Settles O12: the two cases of `step` that execute no command. -/
theorem inputsBetweenCommands : Obligations.InputsBetweenCommands :=
  ⟨step_reset, step_waiting⟩

end Sys2Proof.Proofs
